-- ==== Sys2Proof/Word.lean ====
section
/-! DEFINITION. The words of FLRU and the one record an address space holds (R24, R38, R80, R81). -/

namespace Sys2Proof

/-- A command or response word, 40 bits (R80, R81). -/
abbrev Word := BitVec 40

/-- The operand field `arg` of a command, or the data field of a response, 32 bits (R80, R81). -/
abbrev Arg := BitVec 32

/-- A byte, used by table entries (R61, R62) and by the transport form of a word (R64). -/
abbrev Byte := BitVec 8

/-- A LogValue: a 16-bit two's-complement code (R24). Read as an integer by `BitVec.toInt`. -/
abbrev LogValue := BitVec 16

/-- A position or distance register, `s32` (R9 `POS_W`). Read as an integer by `BitVec.toInt`. -/
abbrev Position := BitVec 32

/-- An unsigned 32-bit quantity, `u32`. Read as a number by `BitVec.toNat`. -/
abbrev U32 := BitVec 32

/-- A QueueEntry, the element of the address space `CQ` (R38, R60). -/
structure QueueEntry where
  ticks : BitVec 16
  steps : BitVec 8
  dir : Bool
  pause : Bool
deriving DecidableEq, Repr, Inhabited

end Sys2Proof
end

