-- ==== Sys2Proof/Syntax.lean ====
section
/-! DEFINITION. The 34 commands of FLRU, one constructor for each row of the opcode table (R84). An operand has
exactly the type of its field in `arg` (R82); how it is read (signed or unsigned, R83) is the meaning's affair. -/

namespace Sys2Proof

/-- One command (R84), its operands in the order of the fields of its format (R82). -/
inductive Instr where
  | lfrom8 (x : BitVec 8)
  | lfrom16 (x : BitVec 16)
  | lfrom32 (x : U32)
  | lto16 (v : LogValue)
  | lto32 (v : LogValue)
  | lmul (a b : LogValue)
  | ldiv (a b : LogValue)
  | lrcp (a : LogValue)
  | lsqr (a : LogValue)
  | lrsqr (a : LogValue)
  | lrsqrt (a : LogValue)
  | lshl (a : LogValue) (n : BitVec 8)
  | lshr (a : LogValue) (n : BitVec 8)
  | qpush (ticks : BitVec 20) (stepsb : BitVec 8) (dir pause : Bool)
  | qpop
  | qempty
  | qfull
  | qack (stepsb : BitVec 8) (dir : Bool)
  | qend
  | init
  | pacc (x : BitVec 32)
  | pspd (x : U32)
  | ptgt (x : Position)
  | pkeep (flag dir : Bool)
  | pchk
  | pub
  | rrun (dir : Bool)
  | rmovt (x : Position)
  | rmove (d : Position)
  | radv (d : Position)
  | rstop
  | ristop
  | rgacc
  | rcomp
deriving DecidableEq, Repr

end Sys2Proof
end

