-- ==== Sys2Proof/Decode.lean ====
section
/-! DEFINITION. The decoder (R80, R82, R84, R86), the encoder written from the same formats, the opcode table as data,
and the transport form of a word (R64). -/

namespace Sys2Proof

/-- Why a word is no command (R86): its opcode is not one of the 34, or a reserved bit of its format is 1; a
transport that is not five bytes carries no word (R64). -/
inductive Reject where
  | unassignedOpcode (op : BitVec 8)
  | reservedBitSet (op : BitVec 8) (arg : Arg)
  | notFiveBytes (n : Nat)
deriving DecidableEq, Repr

/-- `cmd[39:32]`, the opcode (R80). -/
def opcodeOf (cmd : Word) : BitVec 8 := cmd.extractLsb' 32 8

/-- `cmd[31:0]`, the operand field `arg` (R80). -/
def argOf (cmd : Word) : Arg := cmd.extractLsb' 0 32

/-! ## The ten operand formats (R82): the reserved bits must be zero, the rest are the operands -/

/-- Format `Z`: no operand, `arg[31:0]` reserved. -/
def decodeZ (op : BitVec 8) (arg : Arg) (i : Instr) : Except Reject Instr :=
  if arg = 0 then .ok i else .error (.reservedBitSet op arg)

/-- Format `B8`: `x = arg[7:0]`, `arg[31:8]` reserved. -/
def decodeB8 (op : BitVec 8) (arg : Arg) (k : BitVec 8 → Instr) : Except Reject Instr :=
  if arg.extractLsb' 8 24 = 0 then .ok (k (arg.extractLsb' 0 8)) else .error (.reservedBitSet op arg)

/-- Format `H16`: `x = arg[15:0]`, `arg[31:16]` reserved. -/
def decodeH16 (op : BitVec 8) (arg : Arg) (k : BitVec 16 → Instr) : Except Reject Instr :=
  if arg.extractLsb' 16 16 = 0 then .ok (k (arg.extractLsb' 0 16)) else .error (.reservedBitSet op arg)

/-- Format `W32`: `x = arg[31:0]`, nothing reserved. -/
def decodeW32 (arg : Arg) (k : BitVec 32 → Instr) : Except Reject Instr := .ok (k arg)

/-- Format `LL`: `a = arg[15:0]`, `b = arg[31:16]`, nothing reserved. -/
def decodeLL (arg : Arg) (k : LogValue → LogValue → Instr) : Except Reject Instr :=
  .ok (k (arg.extractLsb' 0 16) (arg.extractLsb' 16 16))

/-- Format `LN`: `a = arg[15:0]`, `n = arg[23:16]`, `arg[31:24]` reserved. -/
def decodeLN (op : BitVec 8) (arg : Arg) (k : LogValue → BitVec 8 → Instr) : Except Reject Instr :=
  if arg.extractLsb' 24 8 = 0 then .ok (k (arg.extractLsb' 0 16) (arg.extractLsb' 16 8))
  else .error (.reservedBitSet op arg)

/-- Format `Q`: `ticks = arg[19:0]`, `stepsb = arg[27:20]`, `dir = arg[28]`, `pause = arg[29]`, `arg[31:30]` reserved. -/
def decodeQ (op : BitVec 8) (arg : Arg) (k : BitVec 20 → BitVec 8 → Bool → Bool → Instr) : Except Reject Instr :=
  if arg.extractLsb' 30 2 = 0 then
    .ok (k (arg.extractLsb' 0 20) (arg.extractLsb' 20 8) (arg.getLsbD 28) (arg.getLsbD 29))
  else .error (.reservedBitSet op arg)

/-- Format `QA`: `stepsb = arg[27:20]`, `dir = arg[28]`, `arg[19:0]` and `arg[31:29]` reserved. -/
def decodeQA (op : BitVec 8) (arg : Arg) (k : BitVec 8 → Bool → Instr) : Except Reject Instr :=
  if arg.extractLsb' 0 20 = 0 ∧ arg.extractLsb' 29 3 = 0 then
    .ok (k (arg.extractLsb' 20 8) (arg.getLsbD 28))
  else .error (.reservedBitSet op arg)

/-- Format `D1`: `dir = arg[0]`, `arg[31:1]` reserved. -/
def decodeD1 (op : BitVec 8) (arg : Arg) (k : Bool → Instr) : Except Reject Instr :=
  if arg.extractLsb' 1 31 = 0 then .ok (k (arg.getLsbD 0)) else .error (.reservedBitSet op arg)

/-- Format `KD`: `flag = arg[0]`, `dir = arg[1]`, `arg[31:2]` reserved. -/
def decodeKD (op : BitVec 8) (arg : Arg) (k : Bool → Bool → Instr) : Except Reject Instr :=
  if arg.extractLsb' 2 30 = 0 then .ok (k (arg.getLsbD 0) (arg.getLsbD 1)) else .error (.reservedBitSet op arg)

/-- The opcode map (R84): the format of each assigned opcode applied to `arg`; every other opcode is illegal (R86). -/
def decodeFields (op : BitVec 8) (arg : Arg) : Except Reject Instr :=
  match op.toNat with
  | 0x01 => decodeB8 op arg .lfrom8
  | 0x02 => decodeH16 op arg .lfrom16
  | 0x03 => decodeW32 arg .lfrom32
  | 0x04 => decodeH16 op arg .lto16
  | 0x05 => decodeH16 op arg .lto32
  | 0x10 => decodeLL arg .lmul
  | 0x11 => decodeLL arg .ldiv
  | 0x12 => decodeH16 op arg .lrcp
  | 0x13 => decodeH16 op arg .lsqr
  | 0x14 => decodeH16 op arg .lrsqr
  | 0x15 => decodeH16 op arg .lrsqrt
  | 0x16 => decodeLN op arg .lshl
  | 0x17 => decodeLN op arg .lshr
  | 0x20 => decodeQ op arg .qpush
  | 0x21 => decodeZ op arg .qpop
  | 0x22 => decodeZ op arg .qempty
  | 0x23 => decodeZ op arg .qfull
  | 0x24 => decodeQA op arg .qack
  | 0x25 => decodeZ op arg .qend
  | 0x30 => decodeZ op arg .init
  | 0x31 => decodeW32 arg .pacc
  | 0x32 => decodeW32 arg .pspd
  | 0x33 => decodeW32 arg .ptgt
  | 0x34 => decodeKD op arg .pkeep
  | 0x35 => decodeZ op arg .pchk
  | 0x36 => decodeZ op arg .pub
  | 0x40 => decodeD1 op arg .rrun
  | 0x41 => decodeW32 arg .rmovt
  | 0x42 => decodeW32 arg .rmove
  | 0x43 => decodeW32 arg .radv
  | 0x44 => decodeZ op arg .rstop
  | 0x45 => decodeZ op arg .ristop
  | 0x46 => decodeZ op arg .rgacc
  | 0x47 => decodeZ op arg .rcomp
  | _ => .error (.unassignedOpcode op)

/-- The command a 40-bit word is, or why it is none (R80, R84, R86). Total on every word. -/
def decode (cmd : Word) : Except Reject Instr := decodeFields (opcodeOf cmd) (argOf cmd)

/-! ## The encoder -/

/-- The opcode of each command (R84). -/
def Instr.opcode : Instr → BitVec 8
  | .lfrom8 _ => 0x01
  | .lfrom16 _ => 0x02
  | .lfrom32 _ => 0x03
  | .lto16 _ => 0x04
  | .lto32 _ => 0x05
  | .lmul _ _ => 0x10
  | .ldiv _ _ => 0x11
  | .lrcp _ => 0x12
  | .lsqr _ => 0x13
  | .lrsqr _ => 0x14
  | .lrsqrt _ => 0x15
  | .lshl _ _ => 0x16
  | .lshr _ _ => 0x17
  | .qpush _ _ _ _ => 0x20
  | .qpop => 0x21
  | .qempty => 0x22
  | .qfull => 0x23
  | .qack _ _ => 0x24
  | .qend => 0x25
  | .init => 0x30
  | .pacc _ => 0x31
  | .pspd _ => 0x32
  | .ptgt _ => 0x33
  | .pkeep _ _ => 0x34
  | .pchk => 0x35
  | .pub => 0x36
  | .rrun _ => 0x40
  | .rmovt _ => 0x41
  | .rmove _ => 0x42
  | .radv _ => 0x43
  | .rstop => 0x44
  | .ristop => 0x45
  | .rgacc => 0x46
  | .rcomp => 0x47

/-- `arg` of format `B8`. -/
def encodeB8 (x : BitVec 8) : Arg := 0#24 ++ x
/-- `arg` of format `H16`. -/
def encodeH16 (x : BitVec 16) : Arg := 0#16 ++ x
/-- `arg` of format `LL`. -/
def encodeLL (a b : LogValue) : Arg := b ++ a
/-- `arg` of format `LN`. -/
def encodeLN (a : LogValue) (n : BitVec 8) : Arg := 0#8 ++ n ++ a
/-- `arg` of format `Q`. -/
def encodeQ (ticks : BitVec 20) (stepsb : BitVec 8) (dir pause : Bool) : Arg :=
  0#2 ++ BitVec.ofBool pause ++ BitVec.ofBool dir ++ stepsb ++ ticks
/-- `arg` of format `QA`. -/
def encodeQA (stepsb : BitVec 8) (dir : Bool) : Arg := 0#3 ++ BitVec.ofBool dir ++ stepsb ++ 0#20
/-- `arg` of format `D1`. -/
def encodeD1 (dir : Bool) : Arg := 0#31 ++ BitVec.ofBool dir
/-- `arg` of format `KD`. -/
def encodeKD (flag dir : Bool) : Arg := 0#30 ++ BitVec.ofBool dir ++ BitVec.ofBool flag

/-- The operand field of each command, by the format of its opcode (R82, R84). -/
def Instr.arg : Instr → Arg
  | .lfrom8 x => encodeB8 x
  | .lfrom16 x => encodeH16 x
  | .lfrom32 x => x
  | .lto16 v => encodeH16 v
  | .lto32 v => encodeH16 v
  | .lmul a b => encodeLL a b
  | .ldiv a b => encodeLL a b
  | .lrcp a => encodeH16 a
  | .lsqr a => encodeH16 a
  | .lrsqr a => encodeH16 a
  | .lrsqrt a => encodeH16 a
  | .lshl a n => encodeLN a n
  | .lshr a n => encodeLN a n
  | .qpush ticks stepsb dir pause => encodeQ ticks stepsb dir pause
  | .qpop => 0
  | .qempty => 0
  | .qfull => 0
  | .qack stepsb dir => encodeQA stepsb dir
  | .qend => 0
  | .init => 0
  | .pacc x => x
  | .pspd x => x
  | .ptgt x => x
  | .pkeep flag dir => encodeKD flag dir
  | .pchk => 0
  | .pub => 0
  | .rrun dir => encodeD1 dir
  | .rmovt x => x
  | .rmove d => d
  | .radv d => d
  | .rstop => 0
  | .ristop => 0
  | .rgacc => 0
  | .rcomp => 0

/-- The 40-bit word of a command: opcode in bits 39:32, `arg` in bits 31:0 (R80). -/
def encode (i : Instr) : Word := i.opcode ++ i.arg

/-! ## The opcode table as data (R82, R84, R86) -/

/-- One row of the opcode table: a word is this row's when `cmd AND mask = pattern` (R82, R86). -/
structure OpcodeRow where
  mnemonic : String
  mask : Word
  pattern : Word
deriving DecidableEq, Repr

/-- The rows of the LAU (R84). -/
def opcodeRowsLau : List OpcodeRow :=
  [⟨"LFROM8", 0xFFFFFFFF00, 0x0100000000⟩, ⟨"LFROM16", 0xFFFFFF0000, 0x0200000000⟩,
   ⟨"LFROM32", 0xFF00000000, 0x0300000000⟩, ⟨"LTO16", 0xFFFFFF0000, 0x0400000000⟩,
   ⟨"LTO32", 0xFFFFFF0000, 0x0500000000⟩, ⟨"LMUL", 0xFF00000000, 0x1000000000⟩,
   ⟨"LDIV", 0xFF00000000, 0x1100000000⟩, ⟨"LRCP", 0xFFFFFF0000, 0x1200000000⟩,
   ⟨"LSQR", 0xFFFFFF0000, 0x1300000000⟩, ⟨"LRSQR", 0xFFFFFF0000, 0x1400000000⟩,
   ⟨"LRSQRT", 0xFFFFFF0000, 0x1500000000⟩, ⟨"LSHL", 0xFFFF000000, 0x1600000000⟩,
   ⟨"LSHR", 0xFFFF000000, 0x1700000000⟩]

/-- The rows of the CQ and the PRM (R84). -/
def opcodeRowsCqPrm : List OpcodeRow :=
  [⟨"QPUSH", 0xFFC0000000, 0x2000000000⟩, ⟨"QPOP", 0xFFFFFFFFFF, 0x2100000000⟩,
   ⟨"QEMPTY", 0xFFFFFFFFFF, 0x2200000000⟩, ⟨"QFULL", 0xFFFFFFFFFF, 0x2300000000⟩,
   ⟨"QACK", 0xFFE00FFFFF, 0x2400000000⟩, ⟨"QEND", 0xFFFFFFFFFF, 0x2500000000⟩,
   ⟨"INIT", 0xFFFFFFFFFF, 0x3000000000⟩, ⟨"PACC", 0xFF00000000, 0x3100000000⟩,
   ⟨"PSPD", 0xFF00000000, 0x3200000000⟩, ⟨"PTGT", 0xFF00000000, 0x3300000000⟩,
   ⟨"PKEEP", 0xFFFFFFFFFC, 0x3400000000⟩, ⟨"PCHK", 0xFFFFFFFFFF, 0x3500000000⟩,
   ⟨"PUB", 0xFFFFFFFFFF, 0x3600000000⟩]

/-- The rows of the RSQ (R84). -/
def opcodeRowsRsq : List OpcodeRow :=
  [⟨"RRUN", 0xFFFFFFFFFE, 0x4000000000⟩, ⟨"RMOVT", 0xFF00000000, 0x4100000000⟩,
   ⟨"RMOVE", 0xFF00000000, 0x4200000000⟩, ⟨"RADV", 0xFF00000000, 0x4300000000⟩,
   ⟨"RSTOP", 0xFFFFFFFFFF, 0x4400000000⟩, ⟨"RISTOP", 0xFFFFFFFFFF, 0x4500000000⟩,
   ⟨"RGACC", 0xFFFFFFFFFF, 0x4600000000⟩, ⟨"RCOMP", 0xFFFFFFFFFF, 0x4700000000⟩]

/-- The 34 rows of the opcode table (R84). -/
def opcodeTable : List OpcodeRow := opcodeRowsLau ++ opcodeRowsCqPrm ++ opcodeRowsRsq

/-- A word matches a row when `cmd AND mask = pattern` (R82). -/
def OpcodeRow.matchesWord (r : OpcodeRow) (cmd : Word) : Prop := cmd &&& r.mask = r.pattern

/-! ## The transport form of a word (R64): five bytes, the least significant first -/

/-- The five bytes of a word, least significant first (R64). -/
def bytesOfWord (w : Word) : List Byte :=
  [w.extractLsb' 0 8, w.extractLsb' 8 8, w.extractLsb' 16 8, w.extractLsb' 24 8, w.extractLsb' 32 8]

/-- The word that five bytes carry, or none when there are not five (R64). -/
def wordOfBytes : List Byte → Option Word
  | [b0, b1, b2, b3, b4] => some (b4 ++ b3 ++ b2 ++ b1 ++ b0)
  | _ => none

/-- Decoding a transported command: total on any bytes, rejecting by name. -/
def decodeBytes (bs : List Byte) : Except Reject Instr :=
  match wordOfBytes bs with
  | some w => decode w
  | none => .error (.notFiveBytes bs.length)

/-- The command an opcode-table word is: `w` numbered as the table numbers it, `nbits` of it given and the bits
above 0. The one word of a command is 40 bits, bit 0 its least significant; it is laid out in its transport form and
given to the decoder. -/
def decodeTableWord (nbits w : Nat) : Option Instr :=
  if nbits ≤ 40 then
    match decodeBytes (bytesOfWord (BitVec.ofNat 40 (w % 2 ^ nbits))) with
    | .ok i => some i
    | .error _ => none
  else none

end Sys2Proof
end

