-- ==== Sys2Proof/Config.lean ====
section
/-! DEFINITION. What an implementation fixes: the parameters of R9, the reference tables of R102 and R106, and the one free value. -/

namespace Sys2Proof

/-- The four OPEN parameters of R9, fixed when FLRU is instantiated (R252). R10 asks a model to take
them as configuration: the state carries one `Config`, no step changes it, and statements hold for every one. -/
structure Config where
  /-- `QUEUE_LEN`: the greatest number of entries the queue holds; admissible when at least 1. -/
  queueLen : Nat
  /-- `TICK_HZ`: timer ticks per second; admissible when not 0. -/
  tickHz : U32
  /-- `FWD_TAB`, 256 entries of type `u8` (R61; T5 of R108 holds by the type). -/
  fwdTab : Vector Byte 256
  /-- `INV_TAB`, 256 entries of type `u8` (R62; T5 of R108 holds by the type). -/
  invTab : Vector Byte 256
deriving DecidableEq, Repr

/-- `CQ_SLOTS = QUEUE_LEN + 1`: the slots of the ring (R9, conflict C1). -/
def Config.cqSlots (c : Config) : Nat := c.queueLen + 1

/-- `MemRead(FWD_TAB, f)` (R14, R61): the index is an 8-bit field, so every read is in range (R65, R103). -/
def Config.fwdRead (c : Config) (f : BitVec 8) : Byte := c.fwdTab.get f.toFin

/-- `MemRead(INV_TAB, i)` (R14, R62): the index is an 8-bit field, so every read is in range (R65). -/
def Config.invRead (c : Config) (i : BitVec 8) : Byte := c.invTab.get i.toFin

/-- `LOG_INVALID = -32768`, the sentinel (R25). -/
def Config.logInvalid : LogValue := 0x8000

/-- `MAX_TICKS`, the timer-representable maximum of `tick_count` (R9). -/
def Config.maxTicks : Nat := 65535

/-- `MIN_TICKS`, the least tick interval of a step entry `RCOMP` makes (R9). -/
def Config.minTicks : Nat := 1

/-- `MAX_STEPS`, the greatest `step_count` (R9). -/
def Config.maxSteps : Nat := 127

/-- `STEPS_PER_CMD`, the `step_count` of every entry the sequencer makes while moving (R9). -/
def Config.stepsPerCmd : BitVec 8 := 1

/-- FREE VALUE (log entry 8): what a `CQ` slot that holds no value reads as. R41 and U8 let it be any
value; it has no body, so no proof can depend on which. No state that a run from reset reaches reads it. -/
opaque Config.unwrittenSlot : Nat → QueueEntry

/-- Reference content of `FWD_TAB`, R102 (first half: entries 0 to 127). -/
def Config.fwdReferenceLow : List Nat :=
  List.flatten
    [[0, 1, 2, 3, 4, 5, 6, 6, 7, 8, 9, 10, 10, 11, 12, 13],
     [13, 14, 15, 15, 16, 17, 17, 18, 19, 19, 20, 21, 21, 22, 22, 23],
     [24, 24, 25, 25, 26, 26, 27, 27, 28, 28, 29, 29, 30, 30, 31, 31],
     [31, 32, 32, 33, 33, 33, 34, 34, 35, 35, 35, 36, 36, 36, 37, 37],
     [37, 38, 38, 38, 39, 39, 39, 39, 40, 40, 40, 40, 41, 41, 41, 41],
     [41, 42, 42, 42, 42, 42, 42, 43, 43, 43, 43, 43, 43, 43, 44, 44],
     [44, 44, 44, 44, 44, 44, 44, 44, 44, 44, 44, 44, 44, 45, 45, 45],
     [45, 45, 45, 45, 45, 45, 45, 44, 44, 44, 44, 44, 44, 44, 44, 44]]

/-- Reference content of `FWD_TAB`, R102 (second half: entries 128 to 255). -/
def Config.fwdReferenceHigh : List Nat :=
  List.flatten
    [[44, 44, 44, 44, 44, 44, 43, 43, 43, 43, 43, 43, 43, 43, 42, 42],
     [42, 42, 42, 42, 42, 41, 41, 41, 41, 41, 40, 40, 40, 40, 40, 39],
     [39, 39, 39, 38, 38, 38, 38, 37, 37, 37, 37, 36, 36, 36, 36, 35],
     [35, 35, 34, 34, 34, 34, 33, 33, 33, 32, 32, 32, 31, 31, 31, 30],
     [30, 30, 29, 29, 28, 28, 28, 27, 27, 27, 26, 26, 25, 25, 25, 24],
     [24, 23, 23, 23, 22, 22, 21, 21, 20, 20, 20, 19, 19, 18, 18, 17],
     [17, 16, 16, 15, 15, 14, 14, 14, 13, 13, 12, 12, 11, 11, 10, 10],
     [9, 9, 8, 8, 7, 6, 6, 5, 5, 4, 4, 3, 3, 2, 2, 1]]

/-- Reference content of `INV_TAB`, R106 (first half: entries 0 to 127). -/
def Config.invReferenceLow : List Nat :=
  List.flatten
    [[0, 1, 2, 4, 5, 6, 7, 8, 10, 11, 12, 13, 14, 15, 16, 18],
     [19, 20, 21, 22, 23, 24, 25, 26, 27, 28, 29, 30, 31, 32, 33, 34],
     [35, 36, 37, 38, 39, 40, 41, 42, 43, 44, 45, 46, 46, 47, 48, 49],
     [50, 51, 52, 52, 53, 54, 55, 56, 56, 57, 58, 59, 59, 60, 61, 62],
     [62, 63, 64, 64, 65, 66, 66, 67, 68, 68, 69, 69, 70, 71, 71, 72],
     [72, 73, 73, 74, 74, 75, 76, 76, 76, 77, 77, 78, 78, 79, 79, 80],
     [80, 80, 81, 81, 82, 82, 82, 83, 83, 83, 84, 84, 84, 84, 85, 85],
     [85, 85, 86, 86, 86, 86, 87, 87, 87, 87, 87, 87, 87, 88, 88, 88]]

/-- Reference content of `INV_TAB`, R106 (second half: entries 128 to 255). -/
def Config.invReferenceHigh : List Nat :=
  List.flatten
    [[88, 88, 88, 88, 88, 88, 88, 88, 88, 88, 88, 88, 88, 88, 88, 88],
     [88, 88, 88, 87, 87, 87, 87, 87, 87, 86, 86, 86, 86, 86, 85, 85],
     [85, 84, 84, 84, 84, 83, 83, 83, 82, 82, 81, 81, 81, 80, 80, 79],
     [79, 78, 78, 77, 77, 76, 76, 75, 75, 74, 74, 73, 72, 72, 71, 71],
     [70, 69, 68, 68, 67, 66, 66, 65, 64, 63, 63, 62, 61, 60, 59, 58],
     [58, 57, 56, 55, 54, 53, 52, 51, 50, 49, 48, 47, 46, 45, 44, 43],
     [42, 41, 40, 39, 38, 36, 35, 34, 33, 32, 30, 29, 28, 27, 25, 24],
     [23, 22, 20, 19, 17, 16, 15, 13, 12, 10, 9, 8, 6, 5, 3, 2]]

/-- A table of 256 `u8` entries from its two halves. -/
def Config.tableOf (low high : List Nat) (hl : low.length = 128) (hh : high.length = 128) : Vector Byte 256 :=
  ⟨⟨(low ++ high).map (BitVec.ofNat 8)⟩, by simp [hl, hh]⟩

/-- DESIGN CHOICE (log entry 1): the instantiation `State.reset` uses, the parameter values that
`95_test_vectors.md` section 0 gives: the reference tables, `QUEUE_LEN = 4`, `TICK_HZ = 1000000`. -/
def Config.reference : Config where
  queueLen := 4
  tickHz := 1000000
  fwdTab := Config.tableOf Config.fwdReferenceLow Config.fwdReferenceHigh rfl rfl
  invTab := Config.tableOf Config.invReferenceLow Config.invReferenceHigh rfl rfl

end Sys2Proof
end

