-- ==== Sys2Proof/Machine/State.lean ====
section
/-! DEFINITION. The state of FLRU (R28 to R41), the command interface around it (R20, R80, R81), and the reset state (R250). -/

namespace Sys2Proof.Machine

open Sys2Proof

/-- The three command ports (R20), each standing for one execution context. -/
inductive Port where
  | app
  | rt
  | emit
deriving DecidableEq, Repr

/-- The status of a response (R220). -/
inductive Status where
  | ok
  | invalidAcceleration
  | missingAcceleration
  | missingSpeedLimit
  | queueFull
  | ticksOutOfRange
  | stepsOutOfRange
  | illegalCommand
  | portViolation
deriving DecidableEq, Repr

/-- The ramp phase (R32). -/
inductive Phase where
  | idle
  | accelerating
  | coasting
  | decelerating
deriving DecidableEq, Repr

/-- `p`, RampParameters, the staged configuration (R28). -/
structure Params where
  target : Position
  accel : U32
  speed : U32
  keep : Bool
  keepDir : Bool
  dirty : Bool
  apply : Bool
deriving DecidableEq, Repr

/-- `ro`, RampSnapshot, the published configuration (R30). -/
structure Snapshot where
  target : Position
  accel : U32
  speed : U32
  keep : Bool
  keepDir : Bool
deriving DecidableEq, Repr

/-- `rw`, RampRunningState (R31 to R34). -/
structure Running where
  phase : Phase
  dir : Bool
  vel : LogValue
  pos : Position
  rampSteps : U32
  target : Position
  keep : Bool
  keepDir : Bool
  accel : U32
  speed : U32
  reload : Bool
  incomplete : Bool
deriving DecidableEq, Repr

/-- `req`, the two stop requests (R36). -/
structure Requests where
  gstop : Bool
  istop : Bool
deriving DecidableEq, Repr

/-- The address space `CQ` (R60): slots that hold a value, by rising index; a slot that is not listed holds no
value (R41). The canonical form is `Memory.wf` (`Ops.lean`). -/
abbrev Memory := List (Nat × QueueEntry)

/-- `cq`, the command queue (R39). The indices are integers in `0..QUEUE_LEN`. -/
structure Queue where
  slot : Memory
  readIdx : Nat
  writeIdx : Nat
  netDisp : Position
  livePos : Position
deriving DecidableEq, Repr

/-- A command presented on a port: the port is part of its meaning and is not in the word (R20, R80). -/
structure Command where
  port : Port
  word : Word
deriving DecidableEq, Repr

/-- The response to a command, on the port the command came from: status and data (R81). -/
structure Response where
  port : Port
  status : Status
  data : BitVec 32
deriving DecidableEq, Repr

/-- The whole machine. `p`, `ro`, `rw`, `req`, `cq` are the spec's state (R28 to R41); `cfg` holds the parameters
of R9, which no command changes (R252); `port`, `inbox` and `outbox` are the model's command interface. -/
structure State where
  cfg : Config
  p : Params
  ro : Snapshot
  rw : Running
  req : Requests
  cq : Queue
  /-- The port of the command being executed. -/
  port : Port
  /-- The commands presented and not yet executed, in the total order in which they take effect (R66). -/
  inbox : List Command
  /-- The responses produced, oldest first (R81). -/
  outbox : List Response
deriving DecidableEq, Repr

/-- Why the machine would stop. There is no constructor: every command on every port in every state is answered
(R76, R221, `93_implementation_defined.md`: no behaviour of FLRU is stuck), so nothing raises a fault (safe). -/
inductive Fault where
deriving DecidableEq, Repr

/-- Why an instruction has no meaning here. -/
inductive Refusal where
  /-- An instruction not modelled yet: raised by no arm of `exec`, every command has its meaning (safe). -/
  | notModelled (mnemonic : String)
deriving DecidableEq, Repr

/-- `p` after reset (R250). -/
def Params.reset : Params where
  target := 0
  accel := 0
  speed := 0
  keep := false
  keepDir := false
  dirty := false
  apply := false

/-- `ro` after reset (R250). -/
def Snapshot.reset : Snapshot where
  target := 0
  accel := 0
  speed := 0
  keep := false
  keepDir := false

/-- `rw` after reset (R250): `Idle`, the velocity the sentinel, all else 0. -/
def Running.reset : Running where
  phase := .idle
  dir := false
  vel := Config.logInvalid
  pos := 0
  rampSteps := 0
  target := 0
  keep := false
  keepDir := false
  accel := 0
  speed := 0
  reload := false
  incomplete := false

/-- `req` after reset (R250). -/
def Requests.reset : Requests where
  gstop := false
  istop := false

/-- `cq` after reset (R250): empty. The slots are unspecified there; here none holds a value (log entry 8). -/
def Queue.reset : Queue where
  slot := []
  readIdx := 0
  writeIdx := 0
  netDisp := 0
  livePos := 0

/-- The reset state of the unit with the parameters `c` (R250), no command presented and none answered. -/
def State.resetWith (c : Config) : State where
  cfg := c
  p := Params.reset
  ro := Snapshot.reset
  rw := Running.reset
  req := Requests.reset
  cq := Queue.reset
  port := .app
  inbox := []
  outbox := []

/-- The reset state (R250) of one instantiation, the one of `95_test_vectors.md` section 0 (log entry 1). -/
def State.reset : State := State.resetWith Config.reference

end Sys2Proof.Machine
end

