-- ==== Sys2Proof/Machine/Operands.lean ====
section
/-! DEFINITION. The conversions between integers and fields (R12), the readings of an operand (R83), and the result
formats (R85, R92). -/

namespace Sys2Proof.Machine

open Sys2Proof

/-! ## Numbers (R12) -/

/-- `wrap16(z)`: the `s16` congruent to `z` modulo 2^16, as its bit pattern. -/
def wrap16 (z : Int) : LogValue := BitVec.ofInt 16 z

/-- `wrap32(z)`: the `s32` congruent to `z` modulo 2^32, as its bit pattern. -/
def wrap32 (z : Int) : Position := BitVec.ofInt 32 z

/-- `sat16(z) = max(-32768, min(32767, z))`, as its bit pattern. -/
def sat16 (z : Int) : LogValue := BitVec.ofInt 16 (max (-32768) (min 32767 z))

/-- `msb(x)`, the index of the most significant set bit of `x > 0`, that is `floor(log2 x)`. -/
def msb (x : Nat) : Nat := Nat.log2 x

/-- `sext_N(v)`: the field read as `sN` (R83). -/
def sext {n : Nat} (v : BitVec n) : Int := v.toInt

/-- `zext_N(v)`: the field read as `uN` (R83). -/
def zext {n : Nat} (v : BitVec n) : Nat := v.toNat

/-! ## Result formats (R92) -/

/-- Result format `L`: `rsp[15:0] = u16_of(v)`, the rest 0. -/
def fmtL (v : LogValue) : BitVec 32 := 0#16 ++ v

/-- Result format `U16`: `rsp[15:0] = v`, the rest 0. -/
def fmtU16 (v : BitVec 16) : BitVec 32 := 0#16 ++ v

/-- Result format `U32`. -/
def fmtU32 (v : U32) : BitVec 32 := v

/-- Result format `S32`: `u32_of(v)`. -/
def fmtS32 (v : Position) : BitVec 32 := v

/-- Result format `B`: `rsp[0] = v`, the rest 0. -/
def fmtB (v : Bool) : BitVec 32 := 0#31 ++ BitVec.ofBool v

/-- The data of a result format "none": 0. -/
def fmtNone : BitVec 32 := 0

/-- The layout `Q` of an entry in a data word (R85), with the valid bit. A stored `ticks` has 16 bits, so bits 19:16
of a result are 0; bit 30 is reserved and 0. -/
def entryWord (valid : Bool) (e : QueueEntry) : BitVec 32 :=
  BitVec.ofBool valid ++ 0#1 ++ BitVec.ofBool e.pause ++ BitVec.ofBool e.dir ++ e.steps ++ 0#4 ++ e.ticks

/-- Result format `E`: the entry with `valid = 1`, or the all-zero word when there is none. -/
def fmtE : Option QueueEntry → BitVec 32
  | some e => entryWord true e
  | none => 0

/-! ## Codes -/

/-- The number of a status, `rsp[39:32]` (R220). -/
def Status.code : Status → BitVec 8
  | .ok => 0
  | .invalidAcceleration => 1
  | .missingAcceleration => 2
  | .missingSpeedLimit => 3
  | .queueFull => 4
  | .ticksOutOfRange => 5
  | .stepsOutOfRange => 6
  | .illegalCommand => 7
  | .portViolation => 8

/-- The 40-bit response word (R81): status in bits 39:32, data in bits 31:0. -/
def Response.word (r : Response) : Word := r.status.code ++ r.data

/-- The number of a phase (R32). -/
def Phase.code : Phase → BitVec 2
  | .idle => 0
  | .accelerating => 1
  | .coasting => 2
  | .decelerating => 3

/-- The number of a port (R20). -/
def Port.number : Port → Nat
  | .app => 0
  | .rt => 1
  | .emit => 2

/-- `signed(steps, dir)`, the displacement of an entry in `Z` (R140): a direction bit of 1 counts up. -/
def signedSteps (steps : BitVec 8) (dir : Bool) : Int :=
  if dir then (zext steps : Int) else -(zext steps : Int)

end Sys2Proof.Machine
end

