-- ==== Sys2Proof/Machine/Log.lean ====
section
/-! DEFINITION. The LAU as functions (R17): the two conversions (R100, R104) and the eight arithmetic operations (R120 to
R127). They read their operands and the two tables and nothing else (R21). -/

namespace Sys2Proof.Machine

open Sys2Proof

/-! ## Conversions -/

/-- `from(x)` (R100): the sentinel for 0; otherwise exponent, the 8 bits below the leading one (low bits dropped, short
inputs padded with zeros), and the correction of `FWD_TAB`. -/
def logFrom (c : Config) (x : Nat) : LogValue :=
  if x = 0 then Config.logInvalid
  else
    let e := msb x
    let f := if 8 ≤ e then (x >>> (e - 8)) % 256 else (x <<< (8 - e)) % 256
    wrap16 ((e * 512 + 2 * f + (c.fwdRead (BitVec.ofNat 8 f)).toNat : Nat) : Int)

/-- `from_u8` (R100). -/
def fromU8 (c : Config) (x : BitVec 8) : LogValue := logFrom c (zext x)

/-- `from_u16` (R100). -/
def fromU16 (c : Config) (x : BitVec 16) : LogValue := logFrom c (zext x)

/-- `from_u32` (R100). -/
def fromU32 (c : Config) (x : U32) : LogValue := logFrom c (zext x)

/-- `to_uN(v)` (R104): saturation at both ends; otherwise the mantissa `M` from `INV_TAB`, shifted by the exponent,
a right shift rounding half up. -/
def logTo (c : Config) (n : Nat) (v : LogValue) : Nat :=
  let z := sext v
  if 512 * (n : Int) ≤ z then 2 ^ n - 1
  else
    let e := z / 512
    let frac := (z % 512).toNat
    let m := 1024 + 2 * frac - (c.invRead (BitVec.ofNat 8 (frac >>> 1))).toNat
    if 10 ≤ e then m <<< (e - 10).toNat
    else if e ≤ -2 then 0
    else (m + 1 <<< (9 - e).toNat) >>> (10 - e).toNat

/-- `to_u16` (R104). -/
def toU16 (c : Config) (v : LogValue) : BitVec 16 := BitVec.ofNat 16 (logTo c 16 v)

/-- `to_u32` (R104). -/
def toU32 (c : Config) (v : LogValue) : U32 := BitVec.ofNat 32 (logTo c 32 v)

/-! ## Arithmetic. The sentinel is the integer -32768 to every operation (R27, R129). -/

/-- `multiply(a, b) = wrap16(a + b)` (R120). -/
def multiply (a b : LogValue) : LogValue := wrap16 (sext a + sext b)

/-- `divide(a, b) = wrap16(a - b)` (R121). -/
def divide (a b : LogValue) : LogValue := wrap16 (sext a - sext b)

/-- `reciprocal(a) = wrap16(-a)` (R122). -/
def reciprocal (a : LogValue) : LogValue := wrap16 (-(sext a))

/-- `square(a) = sat16(a + a)` (R123). -/
def square (a : LogValue) : LogValue := sat16 (2 * sext a)

/-- `reciprocal_square(a) = reciprocal(square(a))` (R124). -/
def reciprocalSquare (a : LogValue) : LogValue := reciprocal (square a)

/-- `reciprocal_sqrt(a) = trunc(-a / 2)`, computed in `Z`, rounding toward zero (R125). -/
def reciprocalSqrt (a : LogValue) : LogValue := wrap16 ((-(sext a)).tdiv 2)

/-- `shift_left(a, n) = wrap16(a + n*512)` (R126). -/
def shiftLeft (a : LogValue) (n : BitVec 8) : LogValue := wrap16 (sext a + (zext n : Int) * 512)

/-- `shift_right(a, n) = wrap16(a - n*512)` (R127). -/
def shiftRight (a : LogValue) (n : BitVec 8) : LogValue := wrap16 (sext a - (zext n : Int) * 512)

end Sys2Proof.Machine
end

