-- ==== Sys2Proof/Machine/Ops.lean ====
section
/-! DEFINITION. The named operations over the state: the `CQ` memory (R14, R60), the index arithmetic of the queue
(R140), the response to a command, raising a status in place of a trap (R15, R221), and the port permission (R232). -/

namespace Sys2Proof.Machine

open Sys2Proof

/-- What a command answers with: every one of them ends in a next state. -/
abbrev Result := Host.Outcome State Fault Refusal

/-! ## The address space `CQ` -/

/-- The canonical form of the memory: indices strictly rising. An unlisted slot holds no value, so no listed slot
can equal what an unlisted one reads as. -/
def Memory.wf : Memory → Bool
  | [] => true
  | [_] => true
  | (a, _) :: (b, e) :: m => a < b && Memory.wf ((b, e) :: m)

/-- The value slot `i` holds, if any (R41). -/
def Memory.read : Memory → Nat → Option QueueEntry
  | [], _ => none
  | (a, e) :: m, i => if a = i then some e else Memory.read m i

/-- `MemWrite(CQ, i, v)` (R14): slot `i` holds `v`; the list stays in rising order. -/
def Memory.write : Memory → Nat → QueueEntry → Memory
  | [], i, v => [(i, v)]
  | (a, e) :: m, i, v =>
    if i < a then (i, v) :: (a, e) :: m
    else if i = a then (i, v) :: m
    else (a, e) :: Memory.write m i v

/-- `MemRead(CQ, i)` (R14): the value the slot holds; of a slot that holds none, a free value (R41, U8, log entry 8). -/
def Memory.load (m : Memory) (i : Nat) : QueueEntry := (m.read i).getD (Config.unwrittenSlot i)

/-! ## The index arithmetic of the queue (R140) -/

/-- `cq.count = (cq.write_idx - cq.read_idx) mod CQ_SLOTS`. -/
def State.count (s : State) : Nat :=
  (((s.cq.writeIdx : Int) - (s.cq.readIdx : Int)) % (s.cfg.cqSlots : Int)).toNat

/-- `is_empty()`: a pure index comparison. -/
def State.isEmpty (s : State) : Bool := s.cq.readIdx = s.cq.writeIdx

/-- `is_full()`: a pure index comparison. -/
def State.isFull (s : State) : Bool := (s.cq.writeIdx + 1) % s.cfg.cqSlots = s.cq.readIdx

/-- `qend() = wrap32(cq.live_pos + cq.net_disp)`, the position once all queued entries have run. -/
def State.qend (s : State) : Position := wrap32 (s.cq.livePos.toInt + s.cq.netDisp.toInt)

/-! ## Updates of one record each -/

/-- The state with another staged configuration `p`. -/
def State.withP (s : State) (p : Params) : State := { s with p := p }

/-- The state with another snapshot `ro`. -/
def State.withRo (s : State) (ro : Snapshot) : State := { s with ro := ro }

/-- The state with another running state `rw`. -/
def State.withRw (s : State) (rw : Running) : State := { s with rw := rw }

/-- The state with other stop requests `req`. -/
def State.withReq (s : State) (req : Requests) : State := { s with req := req }

/-- The state with another queue `cq`. -/
def State.withCq (s : State) (cq : Queue) : State := { s with cq := cq }

/-- The state in which the command `c` has been taken from the inbox and is being executed (R20, R66). -/
def State.take (s : State) (c : Command) (rest : List Command) : State := { s with port := c.port, inbox := rest }

/-! ## Responses -/

/-- One response on the port the command came from (R81). -/
def State.respond (s : State) (st : Status) (data : BitVec 32) : State :=
  { s with outbox := s.outbox ++ [⟨s.port, st, data⟩] }

/-- `return v`: the response `OK` with the data the rule gives (R15). -/
def State.answer (s : State) (data : BitVec 32) : State := s.respond .ok data

/-- `raise <Status>` (R15, R221), the one shared operation that stands where a processor has its exception entry:
the response carries the status and data zero, and no state changes: nothing is saved, no mode changes, control goes
nowhere (R222, R225). There is no return from it, because there is nothing to restore (R226). -/
def State.raise (s : State) (st : Status) : State := s.respond st 0

/-! ## Ports as privilege (R231, R232) -/

/-- The port permission table (R232): may this command be issued on this port? -/
def permits : Instr → Port → Bool
  | .lfrom8 _, _ => true
  | .lfrom16 _, _ => true
  | .lfrom32 _, _ => true
  | .lto16 _, _ => true
  | .lto32 _, _ => true
  | .lmul _ _, _ => true
  | .ldiv _ _, _ => true
  | .lrcp _, _ => true
  | .lsqr _, _ => true
  | .lrsqr _, _ => true
  | .lrsqrt _, _ => true
  | .lshl _ _, _ => true
  | .lshr _ _, _ => true
  | .qpush _ _ _ _, q => q = .rt
  | .qpop, q => q = .emit
  | .qempty, _ => true
  | .qfull, _ => true
  | .qack _ _, q => q = .emit
  | .qend, q => q = .app ∨ q = .rt
  | .init, q => q = .app
  | .pacc _, q => q = .app
  | .pspd _, q => q = .app
  | .ptgt _, q => q = .app
  | .pkeep _ _, q => q = .app
  | .pchk, q => q = .app
  | .pub, q => q = .rt
  | .rrun _, q => q = .app
  | .rmovt _, q => q = .app
  | .rmove _, q => q = .app
  | .radv _, q => q = .app
  | .rstop, q => q = .app ∨ q = .rt
  | .ristop, q => q = .app ∨ q = .rt
  | .rgacc, q => q = .app ∨ q = .rt
  | .rcomp, q => q = .rt

/-- A legal command on a port that may not issue it changes no state and is answered `PortViolation` (R232), before
the instruction's own errors (R224); on a port that may, it has its effect. -/
def State.onPort (s : State) (i : Instr) (effect : State → State) : Result :=
  if permits i s.port then .next (effect s) else .next (s.raise .portViolation)

/-- The first port, in the order of R20, that may issue the command: where `withFetchWord` presents it. -/
def portFor (i : Instr) : Port :=
  if permits i .app then .app else if permits i .rt then .rt else .emit

end Sys2Proof.Machine
end

