-- ==== Sys2Proof/Machine/Arith.lean ====
section
/-! DEFINITION. The LAU arithmetic as commands: `LMUL`, `LDIV`, `LRCP`, `LSQR`, `LRSQR`, `LRSQRT`, `LSHL`, `LSHR` (R120
to R127). They write no state and no flag and raise nothing of their own. -/

namespace Sys2Proof.Machine

open Sys2Proof

/-- `LMUL a, b` (R120). -/
def execLmul (a b : LogValue) (s : State) : Result :=
  s.onPort (.lmul a b) fun s => s.answer (fmtL (multiply a b))

/-- `LDIV a, b` (R121). -/
def execLdiv (a b : LogValue) (s : State) : Result :=
  s.onPort (.ldiv a b) fun s => s.answer (fmtL (divide a b))

/-- `LRCP a` (R122). -/
def execLrcp (a : LogValue) (s : State) : Result :=
  s.onPort (.lrcp a) fun s => s.answer (fmtL (reciprocal a))

/-- `LSQR a` (R123). -/
def execLsqr (a : LogValue) (s : State) : Result :=
  s.onPort (.lsqr a) fun s => s.answer (fmtL (square a))

/-- `LRSQR a` (R124). -/
def execLrsqr (a : LogValue) (s : State) : Result :=
  s.onPort (.lrsqr a) fun s => s.answer (fmtL (reciprocalSquare a))

/-- `LRSQRT a` (R125). -/
def execLrsqrt (a : LogValue) (s : State) : Result :=
  s.onPort (.lrsqrt a) fun s => s.answer (fmtL (reciprocalSqrt a))

/-- `LSHL a, n` (R126). -/
def execLshl (a : LogValue) (n : BitVec 8) (s : State) : Result :=
  s.onPort (.lshl a n) fun s => s.answer (fmtL (shiftLeft a n))

/-- `LSHR a, n` (R127). -/
def execLshr (a : LogValue) (n : BitVec 8) (s : State) : Result :=
  s.onPort (.lshr a n) fun s => s.answer (fmtL (shiftRight a n))

end Sys2Proof.Machine
end

