-- ==== Sys2Proof/Machine/CommandQueue.lean ====
section
/-! DEFINITION. The CQ as commands: `QPUSH`, `QPOP`, `QEMPTY`, `QFULL`, `QACK`, `QEND` (R141 to R146). -/

namespace Sys2Proof.Machine

open Sys2Proof

/-- The queue after a successful push of `e` (R141): the slot at `cq.write_idx`, the index, the counter. -/
def State.pushed (s : State) (e : QueueEntry) : State :=
  s.withCq { s.cq with
    slot := s.cq.slot.write s.cq.writeIdx e
    writeIdx := (s.cq.writeIdx + 1) % s.cfg.cqSlots
    netDisp := wrap32 (s.cq.netDisp.toInt + signedSteps e.steps e.dir) }

/-- The queue after a pop (R142): only `cq.read_idx` moves. -/
def State.popped (s : State) : State :=
  s.withCq { s.cq with readIdx := (s.cq.readIdx + 1) % s.cfg.cqSlots }

/-- The queue after the acknowledgment of `d` steps (R145): they move from the queued counter to the live position. -/
def State.acknowledged (s : State) (d : Int) : State :=
  s.withCq { s.cq with
    livePos := wrap32 (s.cq.livePos.toInt + d)
    netDisp := wrap32 (s.cq.netDisp.toInt - d) }

/-- `QPUSH ticks, stepsb, dir, pause` (R141): the three tests in the order the rule makes them. -/
def execQpush (ticks : BitVec 20) (stepsb : BitVec 8) (dir pause : Bool) (s : State) : Result :=
  s.onPort (.qpush ticks stepsb dir pause) fun s =>
    if s.isFull then s.raise .queueFull
    else if Config.maxTicks < zext ticks then s.raise .ticksOutOfRange
    else if Config.maxSteps < zext stepsb then s.raise .stepsOutOfRange
    else (s.pushed ⟨ticks.extractLsb' 0 16, stepsb, dir, pause⟩).answer fmtNone

/-- `QPOP` (R142). -/
def execQpop (s : State) : Result :=
  s.onPort .qpop fun s =>
    if s.isEmpty then s.answer (fmtE none)
    else s.popped.answer (fmtE (some (s.cq.slot.load s.cq.readIdx)))

/-- `QEMPTY` (R143). -/
def execQempty (s : State) : Result := s.onPort .qempty fun s => s.answer (fmtB s.isEmpty)

/-- `QFULL` (R144). -/
def execQfull (s : State) : Result := s.onPort .qfull fun s => s.answer (fmtB s.isFull)

/-- `QACK stepsb, dir` (R145). -/
def execQack (stepsb : BitVec 8) (dir : Bool) (s : State) : Result :=
  s.onPort (.qack stepsb dir) fun s =>
    if Config.maxSteps < zext stepsb then s.raise .stepsOutOfRange
    else (s.acknowledged (signedSteps stepsb dir)).answer fmtNone

/-- `QEND` (R146): the two counters in one command (R74). -/
def execQend (s : State) : Result := s.onPort .qend fun s => s.answer (fmtS32 s.qend)

end Sys2Proof.Machine
end

