-- ==== Sys2Proof/Machine/Convert.lean ====
section
/-! DEFINITION. The LAU conversions as commands: `LFROM8`, `LFROM16`, `LFROM32`, `LTO16`, `LTO32` (R110 to R114). -/

namespace Sys2Proof.Machine

open Sys2Proof

/-- `LFROM8 x` (R110). -/
def execLfrom8 (x : BitVec 8) (s : State) : Result :=
  s.onPort (.lfrom8 x) fun s => s.answer (fmtL (fromU8 s.cfg x))

/-- `LFROM16 x` (R111). -/
def execLfrom16 (x : BitVec 16) (s : State) : Result :=
  s.onPort (.lfrom16 x) fun s => s.answer (fmtL (fromU16 s.cfg x))

/-- `LFROM32 x` (R112). -/
def execLfrom32 (x : U32) (s : State) : Result :=
  s.onPort (.lfrom32 x) fun s => s.answer (fmtL (fromU32 s.cfg x))

/-- `LTO16 v` (R113). -/
def execLto16 (v : LogValue) (s : State) : Result :=
  s.onPort (.lto16 v) fun s => s.answer (fmtU16 (toU16 s.cfg v))

/-- `LTO32 v` (R114). -/
def execLto32 (v : LogValue) (s : State) : Result :=
  s.onPort (.lto32 v) fun s => s.answer (fmtU32 (toU32 s.cfg v))

end Sys2Proof.Machine
end

