-- ==== Sys2Proof/Machine/Flags.lean ====
section
/-! DEFINITION. The flags. FLRU has no condition codes and no arithmetic flags: no LAU instruction records overflow,
saturation or a sentinel operand (R37). Its flags are six one-bit fields; here is each way one is set or cleared. -/

namespace Sys2Proof.Machine

open Sys2Proof

/-- A setter ran: `p.dirty <- 1` (R28, R161 to R164). -/
def Params.markDirty (p : Params) : Params := { p with dirty := true }

/-- A motion request was staged: `p.dirty <- 1; p.apply <- 1` (R28, R183 to R186). -/
def Params.markRequest (p : Params) : Params := { p with dirty := true, apply := true }

/-- The handoff took the staged record: `p.dirty <- 0; p.apply <- 0` (R167). -/
def Params.clearFlags (p : Params) : Params := { p with dirty := false, apply := false }

/-- A snapshot was published with `apply`: `rw.reload <- 1` (R34, R167). -/
def Running.raiseReload (r : Running) : Running := { r with reload := true }

/-- A reload was served or cancelled: `rw.reload <- 0` (R194, R196). -/
def Running.clearReload (r : Running) : Running := { r with reload := false }

/-- An immediate stop ended a ramp in flight: `rw.incomplete <- 1` (R34, R194). -/
def Running.recordIncomplete (r : Running) : Running := { r with incomplete := true }

/-- The reconciliation was done: `rw.incomplete <- 0` (R195). -/
def Running.clearIncomplete (r : Running) : Running := { r with incomplete := false }

/-- `req.gstop <- 1` (R187); idempotent (R36). -/
def Requests.askGraceful (q : Requests) : Requests := { q with gstop := true }

/-- `req.istop <- 1` (R188); idempotent (R36). -/
def Requests.askImmediate (q : Requests) : Requests := { q with istop := true }

/-- `req.gstop <- 0` (R197). -/
def Requests.clearGraceful (q : Requests) : Requests := { q with gstop := false }

/-- Both requests cleared (R194). -/
def Requests.clearBoth : Requests := { gstop := false, istop := false }

end Sys2Proof.Machine
end

