-- ==== Sys2Proof/Machine/Staging.lean ====
section
/-! DEFINITION. The PRM as commands: `INIT`, `PACC`, `PSPD`, `PTGT`, `PKEEP`, `PCHK`, `PUB` (R160 to R167). -/

namespace Sys2Proof.Machine

open Sys2Proof

/-- `cfg_check()` (R165): the status a motion command would be refused with, or `OK`. It reads the staged record. -/
def Params.check (p : Params) : Status :=
  if p.accel = 0 then .missingAcceleration
  else if p.speed = 0 then .missingSpeedLimit
  else .ok

/-- Every register at its reset value (R160, R43); the slots keep their old content, which is unobservable. -/
def State.initialised (s : State) : State :=
  { s with
    p := Params.reset
    ro := Snapshot.reset
    rw := Running.reset
    req := Requests.reset
    cq := { Queue.reset with slot := s.cq.slot } }

/-- The snapshot of a staged record: its five configuration fields (R30, R167). -/
def Params.snapshot (p : Params) : Snapshot :=
  { target := p.target, accel := p.accel, speed := p.speed, keep := p.keep, keepDir := p.keepDir }

/-- The handoff (R167): the copy, `rw.reload` raised when `p.apply` is set, both flags cleared. -/
def State.published (s : State) : State :=
  ((s.withRo s.p.snapshot).withRw (if s.p.apply then s.rw.raiseReload else s.rw)).withP s.p.clearFlags

/-- `INIT` (R160). -/
def execInit (s : State) : Result := s.onPort .init fun s => s.initialised.answer fmtNone

/-- `PACC x` (R161): the operand is read as signed; values that are not positive are refused. -/
def execPacc (x : BitVec 32) (s : State) : Result :=
  s.onPort (.pacc x) fun s =>
    if sext x ≤ 0 then s.raise .invalidAcceleration
    else (s.withP (Params.markDirty { s.p with accel := x })).answer fmtNone

/-- `PSPD x` (R162): no error of its own; 0 means "not set". -/
def execPspd (x : U32) (s : State) : Result :=
  s.onPort (.pspd x) fun s => (s.withP (Params.markDirty { s.p with speed := x })).answer fmtNone

/-- `PTGT x` (R163): the raw setter. -/
def execPtgt (x : Position) (s : State) : Result :=
  s.onPort (.ptgt x) fun s => (s.withP (Params.markDirty { s.p with target := x })).answer fmtNone

/-- `PKEEP flag, dir` (R164): the raw setter. -/
def execPkeep (flag dir : Bool) (s : State) : Result :=
  s.onPort (.pkeep flag dir) fun s =>
    (s.withP (Params.markDirty { s.p with keep := flag, keepDir := dir })).answer fmtNone

/-- `PCHK` (R166). -/
def execPchk (s : State) : Result :=
  s.onPort .pchk fun s => if s.p.check = .ok then s.answer fmtNone else s.raise s.p.check

/-- `PUB` (R167). -/
def execPub (s : State) : Result :=
  s.onPort .pub fun s =>
    if s.p.dirty then s.published.answer (fmtB true) else s.answer (fmtB false)

end Sys2Proof.Machine
end

