-- ==== Sys2Proof/Machine/Motion.lean ====
section
/-! DEFINITION. The RSQ commands of the application and of both contexts: `RRUN`, `RMOVT`, `RMOVE`, `RADV`, `RSTOP`,
`RISTOP`, `RGACC` (R182 to R189). -/

namespace Sys2Proof.Machine

open Sys2Proof

/-- `implied_end()` (R182): where the motion already requested will come to rest; the most recent request wins. -/
def State.impliedEnd (s : State) : Option Position :=
  if s.req.gstop || s.req.istop then none
  else if s.p.apply then (if s.p.keep then none else some s.p.target)
  else if s.rw.reload then (if s.ro.keep then none else some s.ro.target)
  else if s.rw.phase ≠ .idle then (if s.rw.keep then none else some s.rw.target)
  else some s.qend

/-- A fixed target is committed: `p.target`, `p.keep <- 0`, and the request flags (R184, R185). -/
def State.commitTarget (s : State) (x : Position) : State :=
  s.withP (Params.markRequest { s.p with target := x, keep := false })

/-- The configuration check comes before anything else a motion command does (R183 to R185, R224). -/
def State.checked (s : State) (effect : State → State) : State :=
  if s.p.check = .ok then effect s else s.raise s.p.check

/-- `RRUN dir` (R183). -/
def execRrun (dir : Bool) (s : State) : Result :=
  s.onPort (.rrun dir) fun s => s.checked fun s =>
    (s.withP (Params.markRequest { s.p with keep := true, keepDir := dir })).answer (fmtB true)

/-- `RMOVT x` (R184): a no-op when the target is already implied. -/
def execRmovt (x : Position) (s : State) : Result :=
  s.onPort (.rmovt x) fun s => s.checked fun s =>
    if s.impliedEnd = some x then s.answer (fmtB false)
    else (s.commitTarget x).answer (fmtB true)

/-- The target `RMOVE d` computes (R185): from the implied end, or from the end of the queue when there is none. -/
def State.moveTarget (s : State) (d : Position) : Position :=
  wrap32 (sext (s.impliedEnd.getD s.qend) + sext d)

/-- `RMOVE d` (R185). -/
def execRmove (d : Position) (s : State) : Result :=
  s.onPort (.rmove d) fun s => s.checked fun s =>
    if s.impliedEnd = some (s.moveTarget d) then s.answer (fmtB false)
    else (s.commitTarget (s.moveTarget d)).answer (fmtB true)

/-- `RADV d` (R186): effective only while a fixed-target ramp runs; no configuration check, no no-op test. -/
def execRadv (d : Position) (s : State) : Result :=
  s.onPort (.radv d) fun s =>
    if s.rw.phase ≠ .idle ∧ s.rw.keep = false ∧ s.p.keep = false then
      (s.withP (Params.markRequest { s.p with target := wrap32 (sext s.p.target + sext d) })).answer (fmtB true)
    else s.answer (fmtB false)

/-- `RSTOP` (R187). -/
def execRstop (s : State) : Result :=
  s.onPort .rstop fun s => (s.withReq s.req.askGraceful).answer fmtNone

/-- `RISTOP` (R188). -/
def execRistop (s : State) : Result :=
  s.onPort .ristop fun s => (s.withReq s.req.askImmediate).answer fmtNone

/-- The signed acceleration (R189): positive when accelerating upward or decelerating downward, negative in the
inverse pairings, 0 otherwise. -/
def Running.signedAccel (r : Running) : Int :=
  match r.phase, r.dir with
  | .accelerating, true => (zext r.accel : Int)
  | .decelerating, false => (zext r.accel : Int)
  | .accelerating, false => -(zext r.accel : Int)
  | .decelerating, true => -(zext r.accel : Int)
  | .idle, _ => 0
  | .coasting, _ => 0

/-- `RGACC` (R189). -/
def execRgacc (s : State) : Result :=
  s.onPort .rgacc fun s => s.answer (fmtS32 (wrap32 s.rw.signedAccel))

end Sys2Proof.Machine
end

