-- ==== Sys2Proof/Machine/Sequencer.lean ====
section
/-! DEFINITION. `RCOMP`, the ramp sequencer's step (R190 to R203). Each helper of the spec is one definition here, under a
name close to the spec's. A helper that also yields the entry answers the pair of the new state and the entry. -/

namespace Sys2Proof.Machine

open Sys2Proof

/-! ## Velocity and interval -/

/-- `velcode(k, A)` (R190): the code of the velocity at ramp step `k`; at rest the sentinel. -/
def velcode (c : Config) (k : Nat) (accCode : LogValue) : LogValue :=
  if k = 0 then Config.logInvalid
  else reciprocal (reciprocalSqrt (multiply (shiftLeft accCode 1) (fromU32 c (BitVec.ofNat 32 k))))

/-- `step_ticks(vel)` (R191): `TICK_HZ / v`, clamped to `MIN_TICKS..MAX_TICKS`. -/
def stepTicks (c : Config) (vel : LogValue) : BitVec 16 :=
  BitVec.ofNat 16
    (max Config.minTicks (min Config.maxTicks (zext (toU16 c (divide (fromU32 c c.tickHz) vel)))))

/-- `A = from_u32(rw.accel)` (R190, R199). -/
def State.accCode (s : State) : LogValue := fromU32 s.cfg s.rw.accel

/-- `V = from_u32(rw.speed)` (R199). -/
def State.limitCode (s : State) : LogValue := fromU32 s.cfg s.rw.speed

/-- `ramp_vel(k)` for `k ≥ 1` (R200): the ramp's own velocity within the limit; a whole step or more over a lowered
limit still the ramp's own; the step that crosses the limit, the limit. -/
def State.rampVel (s : State) (k : Nat) : LogValue :=
  let c := velcode s.cfg k s.accCode
  if sext c ≤ sext s.limitCode then c
  else if 2 ≤ k ∧ sext s.limitCode ≤ sext (velcode s.cfg (k - 1) s.accCode) then c
  else s.limitCode

/-! ## Entries -/

/-- The null entry (R192). -/
def State.nullEntry (s : State) : QueueEntry := { ticks := 0, steps := 0, dir := s.rw.dir, pause := false }

/-- `make_entry(k)` for `k ≥ 1` (R200): one step in the direction of the ramp. -/
def State.makeEntry (s : State) (k : Nat) : QueueEntry :=
  { ticks := stepTicks s.cfg (s.rampVel k), steps := Config.stepsPerCmd, dir := s.rw.dir, pause := false }

/-! ## The pending events, in the order of R193 -/

/-- `immediate_stop()` (R194). -/
def State.immediateStop (s : State) : State × QueueEntry :=
  let r := s.rw.clearReload
  let r := if r.phase ≠ .idle then r.recordIncomplete else r
  ((s.withReq Requests.clearBoth).withRw { r with phase := .idle, vel := Config.logInvalid }, s.nullEntry)

/-- `reconcile()` (R195). -/
def State.reconcile (s : State) : State :=
  s.withRw { s.rw.clearIncomplete with rampSteps := 0, target := s.rw.pos, keep := false }

/-- The stopping distance of the velocity `vel` under the acceleration `accel`, at least 1 (R196). -/
def stopSteps (c : Config) (vel : LogValue) (accel : U32) : U32 :=
  BitVec.ofNat 32 (max 1 (zext (toU32 c (divide (square vel) (shiftLeft (fromU32 c accel) 1)))))

/-- `reload()` (R196): the snapshot is latched; when the acceleration changes under a moving ramp, the stopping
distance is recomputed for the same velocity. -/
def State.reload (s : State) : State :=
  let r := s.rw.clearReload
  let latched : Running :=
    { r with target := s.ro.target, keep := s.ro.keep, keepDir := s.ro.keepDir,
             accel := s.ro.accel, speed := s.ro.speed }
  if 0 < zext s.rw.rampSteps ∧ s.rw.accel ≠ s.ro.accel ∧ s.ro.accel ≠ 0 then
    s.withRw { latched with rampSteps := stopSteps s.cfg s.rw.vel s.ro.accel }
  else s.withRw latched

/-- `graceful_stop()` (R197): the target becomes the stopping distance away in the direction of motion. -/
def State.gracefulStop (s : State) : State :=
  let k : Int := zext s.rw.rampSteps
  (s.withReq s.req.clearGraceful).withRw
    { s.rw with
      keep := false
      target := if s.rw.dir then wrap32 (sext s.rw.pos + k) else wrap32 (sext s.rw.pos - k) }

/-- The events pending when no immediate stop is: reconciliation, reload, graceful stop, in that order (R193). -/
def State.servePending (s : State) : State :=
  let s := if s.rw.incomplete then s.reconcile else s
  let s := if s.rw.reload then s.reload else s
  if s.req.gstop then s.gracefulStop else s

/-! ## The step along the ramp -/

/-- `go_idle()` (R198). -/
def State.goIdle (s : State) : State × QueueEntry :=
  (s.withRw { s.rw with phase := .idle, vel := Config.logInvalid, rampSteps := 0 }, s.nullEntry)

/-- The remaining distance to the target; in keep-running mode there is none and no distance test fires (R198). -/
inductive Distance where
  | infinite
  | steps (n : Nat)
deriving DecidableEq, Repr

/-- `dist <= s`, with `INFINITE` above every integer (R199). -/
def Distance.within : Distance → Nat → Bool
  | .infinite, _ => false
  | .steps n, s => n ≤ s

/-- `dist >= s + 2`, with `INFINITE` above every integer (R199). -/
def Distance.roomToAccelerate : Distance → Nat → Bool
  | .infinite, _ => true
  | .steps n, s => s + 2 ≤ n

/-- `direction_and_distance()` (R198): the direction to move in and the distance, modulo 2^32. -/
def Running.directionAndDistance (r : Running) : Bool × Distance :=
  if r.keep then (r.keepDir, .infinite)
  else
    let delta := sext (wrap32 (sext r.target - sext r.pos))
    if delta = 0 then (r.dir, .steps 0)
    else if 0 < delta then (true, .steps delta.toNat)
    else (false, .steps (-delta).toNat)

/-- What `decide_phase` answers: the phase of this entry, the ramp step whose velocity times it, the new ramp step
count, and the direction the ramp moves in (R199). -/
structure Decision where
  phase : Phase
  k : Nat
  sn : Nat
  dir : Bool
deriving DecidableEq, Repr

/-- Even one step down the ramp is not below the speed limit (R199 `over`). -/
def State.overLimit (s : State) : Bool :=
  2 ≤ zext s.rw.rampSteps ∧ sext s.limitCode ≤ sext (velcode s.cfg (zext s.rw.rampSteps - 1) s.accCode)

/-- `decide_phase(want, dist)` (R199). -/
def State.decidePhase (s : State) (want : Bool) (dist : Distance) : Decision :=
  let n := zext s.rw.rampSteps
  if n = 0 then ⟨.accelerating, 1, 1, want⟩
  else if s.rw.dir ≠ want ∨ dist.within n ∨ s.overLimit then ⟨.decelerating, n, n - 1, s.rw.dir⟩
  else if dist.roomToAccelerate n ∧ sext (velcode s.cfg n s.accCode) < sext s.limitCode ∧ n < 2 ^ 32 - 1 then
    ⟨.accelerating, n + 1, n + 1, s.rw.dir⟩
  else ⟨.coasting, n, n, s.rw.dir⟩

/-- The end of a ramp (R203): on the target at the lowest velocity, not keep-running. -/
def Running.settle (r : Running) : Running :=
  if r.keep = false ∧ r.pos = r.target ∧ zext r.rampSteps ≤ 1 then
    { r with rampSteps := 0, vel := Config.logInvalid, phase := .idle }
  else r

/-- `update_state(ph, sn)` (R201, R203). -/
def State.updateRamp (s : State) (ph : Phase) (sn : Nat) : State :=
  s.withRw (Running.settle
    { s.rw with
      rampSteps := BitVec.ofNat 32 sn
      vel := if sn = 0 then Config.logInvalid else s.rampVel sn
      pos := if s.rw.dir then wrap32 (sext s.rw.pos + 1) else wrap32 (sext s.rw.pos - 1)
      phase := ph })

/-- One step entry as decided: the direction is set, the entry made, the running state advanced (R199 to R203). -/
def State.takeStep (s : State) (d : Decision) : State × QueueEntry :=
  let s := s.withRw { s.rw with dir := d.dir }
  (s.updateRamp d.phase d.sn, s.makeEntry d.k)

/-- `RCOMP` after the pending events: rest, or one step (R193, R198). -/
def State.advance (s : State) : State × QueueEntry :=
  if s.rw.accel = 0 ∨ s.rw.speed = 0 then s.goIdle
  else
    let wd := s.rw.directionAndDistance
    if wd.2 = .steps 0 ∧ zext s.rw.rampSteps ≤ 1 then s.goIdle
    else s.takeStep (s.decidePhase wd.1 wd.2)

/-- The sequencer's transition and the entry it returns (R193). -/
def State.rcomp (s : State) : State × QueueEntry :=
  if s.req.istop then s.immediateStop else s.servePending.advance

/-- `RCOMP` (R193): never fails (R228). -/
def execRcomp (s : State) : Result :=
  s.onPort .rcomp fun s => s.rcomp.1.answer (fmtE (some s.rcomp.2))

end Sys2Proof.Machine
end

