-- ==== Sys2Proof/Machine/Dispatch.lean ====
section
/-! DEFINITION. The dispatch of a decoded command to its meaning. -/

namespace Sys2Proof.Machine

open Sys2Proof

/-- What a command does on the port `s.port` in the state `s`. -/
def exec (i : Instr) (s : State) : Host.Outcome State Fault Refusal :=
  match i with
  | .lfrom8 x => Sys2Proof.Machine.execLfrom8 x s
  | .lfrom16 x => Sys2Proof.Machine.execLfrom16 x s
  | .lfrom32 x => Sys2Proof.Machine.execLfrom32 x s
  | .lto16 v => Sys2Proof.Machine.execLto16 v s
  | .lto32 v => Sys2Proof.Machine.execLto32 v s
  | .lmul a b => Sys2Proof.Machine.execLmul a b s
  | .ldiv a b => Sys2Proof.Machine.execLdiv a b s
  | .lrcp a => Sys2Proof.Machine.execLrcp a s
  | .lsqr a => Sys2Proof.Machine.execLsqr a s
  | .lrsqr a => Sys2Proof.Machine.execLrsqr a s
  | .lrsqrt a => Sys2Proof.Machine.execLrsqrt a s
  | .lshl a n => Sys2Proof.Machine.execLshl a n s
  | .lshr a n => Sys2Proof.Machine.execLshr a n s
  | .qpush ticks stepsb dir pause => Sys2Proof.Machine.execQpush ticks stepsb dir pause s
  | .qpop => Sys2Proof.Machine.execQpop s
  | .qempty => Sys2Proof.Machine.execQempty s
  | .qfull => Sys2Proof.Machine.execQfull s
  | .qack stepsb dir => Sys2Proof.Machine.execQack stepsb dir s
  | .qend => Sys2Proof.Machine.execQend s
  | .init => Sys2Proof.Machine.execInit s
  | .pacc x => Sys2Proof.Machine.execPacc x s
  | .pspd x => Sys2Proof.Machine.execPspd x s
  | .ptgt x => Sys2Proof.Machine.execPtgt x s
  | .pkeep flag dir => Sys2Proof.Machine.execPkeep flag dir s
  | .pchk => Sys2Proof.Machine.execPchk s
  | .pub => Sys2Proof.Machine.execPub s
  | .rrun dir => Sys2Proof.Machine.execRrun dir s
  | .rmovt x => Sys2Proof.Machine.execRmovt x s
  | .rmove d => Sys2Proof.Machine.execRmove d s
  | .radv d => Sys2Proof.Machine.execRadv d s
  | .rstop => Sys2Proof.Machine.execRstop s
  | .ristop => Sys2Proof.Machine.execRistop s
  | .rgacc => Sys2Proof.Machine.execRgacc s
  | .rcomp => Sys2Proof.Machine.execRcomp s

end Sys2Proof.Machine
end

