-- ==== Sys2Proof/Machine/Step.lean ====
section
/-! DEFINITION. One step: the next presented command is taken, decoded and executed (R66, R86). -/

namespace Sys2Proof.Machine

open Sys2Proof

/-- One command, one atomic transition (R66). A word that is no command changes no state and is answered
`IllegalCommand` on whatever port it arrives (R86). With no command presented nothing happens (log entry 4). -/
def step (s : State) : Host.Outcome State Fault Refusal :=
  match s.inbox with
  | [] => .next s
  | c :: rest =>
    match decode c.word with
    | .ok i => exec i (s.take c rest)
    | .error _ => .next ((s.take c rest).raise .illegalCommand)

/-- The word `w` of `nbits` bits presented as the next command, on the first port that may issue it (APP for a word
that is no command), before whatever is already presented (log entry 7). -/
def State.withFetchWord (s : State) (nbits w : Nat) : State :=
  let word : Word := BitVec.ofNat 40 (w % 2 ^ nbits)
  let port : Port := match decode word with
    | .ok i => portFor i
    | .error _ => .app
  { s with inbox := ⟨port, word⟩ :: s.inbox }

end Sys2Proof.Machine
end

