-- ==== Sys2Proof/WellFormed.lean ====
section
/-! DEFINITION. Well-formedness: of an instruction (nothing is left to check) and of an implementation's parameters
(R9 and the table contract T1 to T3 of R108). -/

namespace Sys2Proof

/-- Every operand of an `Instr` has exactly the type of its field in R82, so every term is well-formed: an operand
that does not fit its field cannot be written down. The values an instruction refuses (R88) are errors of the
instruction, answered with a status, and no matter of well-formedness. -/
def Instr.wf (_ : Instr) : Bool := true

/-- `QUEUE_LEN` is an integer that is at least 1 (R9). -/
def Config.queueLenOk (c : Config) : Bool := 1 ≤ c.queueLen

/-- `1 ≤ TICK_HZ ≤ 2^32 - 1` (R9); the upper bound holds by the type. -/
def Config.tickHzOk (c : Config) : Bool := c.tickHz ≠ 0

/-- T1 of R108: the first entry of each table is 0. -/
def Config.tableT1 (c : Config) : Bool := c.fwdRead 0 = 0 && c.invRead 0 = 0

/-- The mantissa code with its correction, `2*f + FWD_TAB[f]` (R103, T2). -/
def Config.fwdCode (c : Config) (f : Nat) : Nat := 2 * f + (c.fwdRead (BitVec.ofNat 8 f)).toNat

/-- T2 of R108: `2*f + FWD_TAB[f]` is strictly increasing and at most 511 at `f = 255`. -/
def Config.tableT2 (c : Config) : Bool :=
  (List.range 255).all (fun f => c.fwdCode f < c.fwdCode (f + 1)) && c.fwdCode 255 ≤ 511

/-- The reconstructed mantissa `M(frac) = 1024 + 2*frac - INV_TAB[frac >> 1]` (R104, T3). An entry is below
256, so the subtraction never goes below zero. -/
def Config.invMantissa (c : Config) (frac : Nat) : Nat :=
  1024 + 2 * frac - (c.invRead (BitVec.ofNat 8 (frac / 2))).toNat

/-- T3 of R108: `M` is non-decreasing over `0..511` and stays in `[1024, 2047]`. -/
def Config.tableT3 (c : Config) : Bool :=
  (List.range 511).all (fun k => c.invMantissa k ≤ c.invMantissa (k + 1)) &&
    1024 ≤ c.invMantissa 0 && c.invMantissa 511 ≤ 2047

/-- The parameters are admissible: R9 and T1 to T3 (T5 holds by the types). T4, the error bound over all inputs,
is `TableT4` of `Safety.lean`: R101 and R105 need T1 to T3 only (R108), and so does every invariant here. -/
def Config.wf (c : Config) : Bool :=
  c.queueLenOk && c.tickHzOk && c.tableT1 && c.tableT2 && c.tableT3

end Sys2Proof
end

