-- ==== Sys2Proof/Safety.lean ====
section
/-! DEFINITION. What a good state and a good run are, in the terms the statements use: the invariants of R35, R40, R41
and R168, the queue as the list of its entries in flight, the quiescent state, and the table contract T4. -/

namespace Sys2Proof.Machine

open Sys2Proof

/-! ## The queue (R38 to R41) -/

/-- The slot that holds the `j`-th entry in flight, the oldest being the 0-th (R41). -/
def State.flightSlot (s : State) (j : Nat) : Nat := (s.cq.readIdx + j) % s.cfg.cqSlots

/-- The entries in flight, oldest first (R41). -/
def State.inFlight (s : State) : List QueueEntry :=
  (List.range s.count).map fun j => s.cq.slot.load (s.flightSlot j)

/-- The queue invariant: the indices are in `0..QUEUE_LEN` (R39), the memory has its canonical form, every stored
entry lies in the ring and has bit 7 of `steps` zero (R38), and every slot in flight holds a value (R41). -/
structure QueueInv (s : State) : Prop where
  read_le : s.cq.readIdx ≤ s.cfg.queueLen
  write_le : s.cq.writeIdx ≤ s.cfg.queueLen
  canonical : Memory.wf s.cq.slot = true
  stored : ∀ i e, s.cq.slot.read i = some e → i ≤ s.cfg.queueLen ∧ e.steps.toNat ≤ Config.maxSteps
  flight : ∀ j, j < s.count → (s.cq.slot.read (s.flightSlot j)).isSome = true

/-! ## The staging area (R28, R30, R168) -/

/-- The staging invariant: a staged request is dirty (R168(a)), and no acceleration exceeds `ACC_MAX` (R28). -/
structure StagedInv (s : State) : Prop where
  apply_dirty : s.p.apply = true → s.p.dirty = true
  staged_accel : s.p.accel.toNat ≤ 2 ^ 31 - 1
  published_accel : s.ro.accel.toNat ≤ 2 ^ 31 - 1

/-! ## The sequencer (R35) -/

/-- The invariants (a) to (d) of R35. -/
structure RampInv (s : State) : Prop where
  idle_at_rest : s.rw.phase = .idle → s.rw.incomplete = false →
    s.rw.rampSteps = 0 ∧ s.rw.vel = Config.logInvalid
  rest_no_velocity : s.rw.rampSteps = 0 → s.rw.incomplete = false → s.rw.vel = Config.logInvalid
  velocity_code : s.rw.vel = Config.logInvalid ∨ (0 ≤ s.rw.vel.toInt ∧ s.rw.vel.toInt ≤ 16383)
  accel_range : s.rw.accel.toNat ≤ 2 ^ 31 - 1

/-- Everything that holds of a unit with admissible parameters from reset on. -/
structure Inv (s : State) : Prop where
  config : s.cfg.wf = true
  queue : QueueInv s
  staged : StagedInv s
  ramp : RampInv s

/-! ## Rest (R198, R203, R250) -/

/-- The quiescent state: "`Idle` with velocity zero and position equal to target" (R203, R250). -/
def State.atRest (s : State) : Prop :=
  s.rw.phase = .idle ∧ s.rw.vel = Config.logInvalid ∧ s.rw.rampSteps = 0 ∧ s.rw.pos = s.rw.target

/-- No event is pending for the next `RCOMP` (R193, R223). -/
def State.nothingPending (s : State) : Prop :=
  s.req.istop = false ∧ s.req.gstop = false ∧ s.rw.incomplete = false ∧ s.rw.reload = false

/-- A fixed-target ramp that can be computed: an acceleration and a speed limit in effect, no keep-running mode. -/
def State.hasTarget (s : State) : Prop := s.rw.keep = false ∧ s.rw.accel ≠ 0 ∧ s.rw.speed ≠ 0

/-- The command `RCOMP` presented on the RT port (R193: `47 00000000`). -/
def rcompCommand : Command := ⟨.rt, 0x4700000000⟩

/-- `n` commands `RCOMP`, and no other command between them, take the state `s` to `t` (R205(d)). -/
def RcompRun (n : Nat) (s t : State) : Prop :=
  Sys2Proof.core.run n { s with inbox := List.replicate n rcompCommand } = .next t

/-- The order in which a move visits its phases (R205(e)). -/
def Phase.rank : Phase → Nat
  | .accelerating => 0
  | .coasting => 1
  | .decelerating => 2
  | .idle => 3

/-! ## The table contract (R108) -/

/-- T4 of R108: the round-trip error is below 0.4 %, for every input of both widths (`4/1000` of `x`). -/
def TableT4 (c : Config) : Prop :=
  (∀ x : U32, x ≠ 0 → 1000 * |((toU32 c (fromU32 c x)).toNat : Int) - x.toNat| < 4 * x.toNat) ∧
  (∀ x : BitVec 16, x ≠ 0 → 1000 * |((toU16 c (fromU16 c x)).toNat : Int) - x.toNat| < 4 * x.toNat)

/-! ## The conversions as arithmetic on numbers (R100, R104) -/

/-- `d` is the data of the code of `x` (R100): the sentinel for 0; else, with `e` the exponent of `x` and `f` the 8 bits
below its leading one, `512*e + 2*f + FWD_TAB[f]`. -/
def IsForwardCode (c : Config) (x : Nat) (d : BitVec 32) : Prop :=
  (x = 0 → d = 0x8000) ∧
  ∀ e, 2 ^ e ≤ x → x < 2 ^ (e + 1) →
    d = BitVec.ofNat 32
      (512 * e + 2 * (x * 256 / 2 ^ e % 256) + (c.fwdRead (BitVec.ofNat 8 (x * 256 / 2 ^ e % 256))).toNat)

/-- `d` is the data of the integer of width `n` that the code `v` stands for (R104): saturated at both ends; between
them `M * 2^e / 1024` rounded half up, with `e` the floor of `v / 512`. -/
def IsInverseValue (c : Config) (n : Nat) (v : LogValue) (d : BitVec 32) : Prop :=
  (512 * (n : Int) ≤ v.toInt → d = BitVec.ofNat 32 (2 ^ n - 1)) ∧
  (v.toInt < -512 → d = 0) ∧
  (-512 ≤ v.toInt → v.toInt < 512 * (n : Int) →
    d = BitVec.ofNat 32 ((c.invMantissa (v.toInt % 512).toNat * 2 ^ ((v.toInt + 512) / 512).toNat + 1024) / 2048))

/-! ## Statuses and ports as tables (R221, R224, R232) -/

/-- The configuration error of R165, if any. -/
def State.missing (s : State) : Status :=
  if s.p.accel = 0 then .missingAcceleration else if s.p.speed = 0 then .missingSpeedLimit else .ok

/-- The instruction's own error, by the table of R221; `OK` for the instructions that raise nothing of their own. -/
def ownStatus (i : Instr) (s : State) : Status :=
  match i with
  | .pacc x => if x.toInt ≤ 0 then .invalidAcceleration else .ok
  | .pchk => s.missing
  | .rrun _ => s.missing
  | .rmovt _ => s.missing
  | .rmove _ => s.missing
  | .qpush ticks stepsb _ _ =>
    if s.count = s.cfg.queueLen then .queueFull
    else if 65535 < ticks.toNat then .ticksOutOfRange
    else if 127 < stepsb.toNat then .stepsOutOfRange
    else .ok
  | .qack stepsb _ => if 127 < stepsb.toNat then .stepsOutOfRange else .ok
  | _ => .ok

/-- The port permission table of R232, by opcode (R84). -/
def portsOfOpcode (op : Nat) : List Port :=
  if op < 0x20 then [.app, .rt, .emit]
  else if op = 0x20 then [.rt]
  else if op = 0x21 then [.emit]
  else if op = 0x22 ∨ op = 0x23 then [.app, .rt, .emit]
  else if op = 0x24 then [.emit]
  else if op = 0x25 then [.app, .rt]
  else if op ≤ 0x35 then [.app]
  else if op = 0x36 then [.rt]
  else if op ≤ 0x43 then [.app]
  else if op ≤ 0x46 then [.app, .rt]
  else [.rt]

/-- The status a presented command is answered with, in the order of R224: illegal, port, the instruction's own. -/
def expectedStatus (c : Command) (s : State) : Status :=
  match decode c.word with
  | .error _ => .illegalCommand
  | .ok i => if c.port ∈ portsOfOpcode i.opcode.toNat then ownStatus i s else .portViolation

/-- The five records of the unit are as they were (R221: no state is written). -/
def SameUnit (s t : State) : Prop :=
  t.cfg = s.cfg ∧ t.p = s.p ∧ t.ro = s.ro ∧ t.rw = s.rw ∧ t.req = s.req ∧ t.cq = s.cq

end Sys2Proof.Machine
end

