-- ==== Sys2Proof/Certificates/Slice0/Obligations.lean ====
section
/-! DEFINITION. The statements for the provers, in the order of the spec's files. A statement about an instruction's
result is an equation `exec … = .next …` over every state and operand it names, so it is the instruction's frame too:
`s.answer d` and `s.raise st` change the outbox only (`ResponsesCarryStatusAndData`). -/

open Sys2Proof Sys2Proof.Machine

/-! ## Encoding (30_encoding.md) -/

/-- Decoding an encoded command gives it back, from the word and from its transported bytes: no operand bit is lost. -/
def Obligations.EveryCommandRoundTripsThroughItsWord : Prop :=
  ∀ i : Instr, decode (encode i) = .ok i ∧ decodeBytes (bytesOfWord (encode i)) = .ok i

/-- A legal word is the encoding of the command it decodes to: no two words are one command. -/
def Obligations.EveryLegalWordIsTheEncodingOfItsCommand : Prop :=
  ∀ (w : Word) (i : Instr), decode w = .ok i → encode i = w

/-- R86: a word is a command exactly when some row of the opcode table matches, at most one does, and an illegal one
changes no state and is answered `IllegalCommand`, data zero, on whatever port it arrives. -/
def Obligations.IllegalWordsAreRefusedOnEveryPort : Prop :=
  (∀ w : Word, (∃ i, decode w = .ok i) ↔ ∃ r ∈ opcodeTable, w &&& r.mask = r.pattern) ∧
  (∀ w : Word, ∀ r₁ ∈ opcodeTable, ∀ r₂ ∈ opcodeTable,
    w &&& r₁.mask = r₁.pattern → w &&& r₂.mask = r₂.pattern → r₁ = r₂) ∧
  (∀ (s : State) (c : Command) (rest : List Command), s.inbox = c :: rest →
    (∀ r ∈ opcodeTable, c.word &&& r.mask ≠ r.pattern) →
    step s = .next { s with
      port := c.port, inbox := rest, outbox := s.outbox ++ [⟨c.port, .illegalCommand, 0⟩] })

/-- Words the spec writes out, one of each family at least, decode to the commands it says. -/
def Obligations.WordsOfTheSpecDecode : Prop :=
  decode 0x01000000FF = .ok (.lfrom8 255) ∧ decode 0x03000F4240 = .ok (.lfrom32 1000000) ∧
  decode 0x040000032C = .ok (.lto16 812) ∧ decode 0x100200032C = .ok (.lmul 812 512) ∧
  decode 0x160003032C = .ok (.lshl 812 3) ∧ decode 0x2010105760 = .ok (.qpush 22368 1 true false) ∧
  decode 0x2410100000 = .ok (.qack 1 true) ∧ decode 0x31FFFFFFFB = .ok (.pacc (-5)) ∧
  decode 0x3400000003 = .ok (.pkeep true true) ∧ decode 0x4000000001 = .ok (.rrun true) ∧
  decode 0x42FFFFFFF9 = .ok (.rmove (-7)) ∧ decode 0x4700000000 = .ok .rcomp

/-- R15, R81, R220: answering and raising append one response on the command's port and change nothing else; the response
word is the status number over the data; the numbers of the nine statuses. -/
def Obligations.ResponsesCarryStatusAndData : Prop :=
  (∀ (s : State) (d : BitVec 32) (st : Status),
    s.answer d = { s with outbox := s.outbox ++ [⟨s.port, .ok, d⟩] } ∧
    s.raise st = { s with outbox := s.outbox ++ [⟨s.port, st, 0⟩] }) ∧
  (∀ r : Response, r.word.extractLsb' 32 8 = r.status.code ∧ r.word.extractLsb' 0 32 = r.data) ∧
  ([Status.ok, .invalidAcceleration, .missingAcceleration, .missingSpeedLimit, .queueFull, .ticksOutOfRange,
      .stepsOutOfRange, .illegalCommand, .portViolation].map Status.code = [0, 1, 2, 3, 4, 5, 6, 7, 8])

/-! ## The step (20_memory.md, 60_exceptions.md) -/

/-- A presented word that decodes to a command runs it, on the port it arrived on, taken from the inbox; with no
command presented (the model's choice, log entry 4) nothing changes. -/
def Obligations.StepRunsTheDecodedCommand : Prop :=
  (∀ (s : State) (c : Command) (rest : List Command) (i : Instr), s.inbox = c :: rest → decode c.word = .ok i →
    step s = exec i { s with port := c.port, inbox := rest }) ∧
  (∀ s : State, s.inbox = [] → step s = .next s)

/-- Every command in every state is answered once, on its port; a refused one leaves the whole unit as it was. (The
inbox and the outbox are the model's own: log entries 3 and 5.) -/
def Obligations.EveryCommandIsAnsweredOnce : Prop :=
  ∀ (s : State) (c : Command) (rest : List Command), s.inbox = c :: rest →
    ∃ (t : State) (st : Status) (d : BitVec 32), step s = .next t ∧
      t.inbox = rest ∧ t.cfg = s.cfg ∧ t.outbox = s.outbox ++ [⟨c.port, st, d⟩] ∧
      (st ≠ .ok → d = 0 ∧ SameUnit s t)

/-- As many steps as commands are presented answer them all, in order and each on its port: nothing blocks. (The inbox
and the outbox are the model's own: log entries 3 and 5.) -/
def Obligations.PresentedCommandsAreAllAnsweredInOrder : Prop :=
  ∀ s : State, ∃ (t : State) (rs : List Response), Sys2Proof.core.run s.inbox.length s = .next t ∧
    t.inbox = [] ∧ t.cfg = s.cfg ∧ t.outbox = s.outbox ++ rs ∧ rs.map (·.port) = s.inbox.map (·.port)

/-- R221, R224: which status a command is answered with, in the order of testing, and that a status other than `OK`
is the whole effect. The premises are the index ranges of R39. -/
def Obligations.StatusesFollowTheTable : Prop :=
  ∀ (s : State) (c : Command) (rest : List Command), s.inbox = c :: rest →
    s.cq.readIdx ≤ s.cfg.queueLen → s.cq.writeIdx ≤ s.cfg.queueLen →
    ∃ (t : State) (d : BitVec 32), step s = .next t ∧
      t.outbox = s.outbox ++ [⟨c.port, expectedStatus c s, d⟩] ∧
      (expectedStatus c s ≠ .ok →
        t = { s with port := c.port, inbox := rest, outbox := s.outbox ++ [⟨c.port, expectedStatus c s, 0⟩] })

/-- R232: a legal command on a port that is not marked for it changes no state and is answered `PortViolation`, data
zero; on a port that is, it is never answered so. -/
def Obligations.PortPermissionTable : Prop :=
  ∀ (i : Instr) (s : State),
    (s.port ∉ portsOfOpcode i.opcode.toNat →
      exec i s = .next { s with outbox := s.outbox ++ [⟨s.port, .portViolation, 0⟩] }) ∧
    (s.port ∈ portsOfOpcode i.opcode.toNat →
      ∃ (t : State) (st : Status) (d : BitVec 32),
        exec i s = .next t ∧ t.outbox = s.outbox ++ [⟨s.port, st, d⟩] ∧ st ≠ .portViolation)

/-- What a command on each port may write (R28 to R39, R231): the emitter moves `read_idx` and the two counters; the
real-time side never writes the staged configuration, `read_idx` or `live_pos`; the application never writes `ro`, `rw`
or the queue but by `INIT`. -/
def Obligations.EachPortWritesOnlyWhatItOwns : Prop :=
  ∀ (i : Instr) (s t : State), exec i s = .next t →
    (s.port = .emit → t.p = s.p ∧ t.ro = s.ro ∧ t.rw = s.rw ∧ t.req = s.req ∧
      t.cq.slot = s.cq.slot ∧ t.cq.writeIdx = s.cq.writeIdx) ∧
    (s.port = .rt → t.p.snapshot = s.p.snapshot ∧ t.cq.readIdx = s.cq.readIdx ∧ t.cq.livePos = s.cq.livePos) ∧
    (s.port = .app → i ≠ .init → t.ro = s.ro ∧ t.rw = s.rw ∧ t.cq = s.cq)

/-- The writers of each register, by the "written by" columns of R28, R30, R31, R36 and R39. The staged flag `dirty` is
written by every command that writes another field of `p`, and by `PUB`. -/
def Obligations.EachRegisterHasItsWriters : Prop :=
  ∀ (i : Instr) (s t : State), exec i s = .next t →
    t.cfg = s.cfg ∧ t.port = s.port ∧ t.inbox = s.inbox ∧
    (t.ro ≠ s.ro → i = .pub ∨ i = .init) ∧
    (t.rw ≠ s.rw → i = .rcomp ∨ i = .pub ∨ i = .init) ∧
    (i = .pub → t.rw = { s.rw with reload := t.rw.reload }) ∧
    (t.req ≠ s.req → i = .rstop ∨ i = .ristop ∨ i = .rcomp ∨ i = .init) ∧
    (t.cq.slot ≠ s.cq.slot → ∃ a b c d, i = .qpush a b c d) ∧
    (t.cq.writeIdx ≠ s.cq.writeIdx → i = .init ∨ ∃ a b c d, i = .qpush a b c d) ∧
    (t.cq.readIdx ≠ s.cq.readIdx → i = .qpop ∨ i = .init) ∧
    (t.cq.livePos ≠ s.cq.livePos → i = .init ∨ ∃ a b, i = .qack a b) ∧
    (t.cq.netDisp ≠ s.cq.netDisp → i = .init ∨ (∃ a b, i = .qack a b) ∨ ∃ a b c d, i = .qpush a b c d) ∧
    (t.p.target ≠ s.p.target →
      i = .init ∨ (∃ x, i = .ptgt x) ∨ (∃ x, i = .rmovt x) ∨ (∃ d, i = .rmove d) ∨ ∃ d, i = .radv d) ∧
    (t.p.accel ≠ s.p.accel → i = .init ∨ ∃ x, i = .pacc x) ∧
    (t.p.speed ≠ s.p.speed → i = .init ∨ ∃ x, i = .pspd x) ∧
    (t.p.keep ≠ s.p.keep →
      i = .init ∨ (∃ f d, i = .pkeep f d) ∨ (∃ d, i = .rrun d) ∨ (∃ x, i = .rmovt x) ∨ ∃ d, i = .rmove d) ∧
    (t.p.keepDir ≠ s.p.keepDir → i = .init ∨ (∃ f d, i = .pkeep f d) ∨ ∃ d, i = .rrun d) ∧
    (t.p.dirty ≠ s.p.dirty →
      i = .init ∨ i = .pub ∨ (∃ x, i = .pacc x) ∨ (∃ x, i = .pspd x) ∨ (∃ x, i = .ptgt x) ∨
      (∃ f d, i = .pkeep f d) ∨ (∃ d, i = .rrun d) ∨ (∃ x, i = .rmovt x) ∨ (∃ d, i = .rmove d) ∨
      ∃ d, i = .radv d) ∧
    (t.p.apply ≠ s.p.apply →
      i = .init ∨ i = .pub ∨ (∃ d, i = .rrun d) ∨ (∃ x, i = .rmovt x) ∨ (∃ d, i = .rmove d) ∨ ∃ d, i = .radv d)

/-- R70(b), R168(f): the sequencer reads neither the staged configuration nor the queue. Two states that differ only
there, whatever `p` and `cq` are put in, go on to two states that differ only there, with the same response. -/
def Obligations.SequencerReadsNeitherStagingNorQueue : Prop :=
  ∀ (s t : State) (p : Params) (q : Queue), exec .rcomp s = .next t →
    exec .rcomp { s with p := p, cq := q } = .next { t with p := p, cq := q }

/-! ## LAU conversions (40_log_convert.md) -/

/-- R100, R110 to R112: the three forward conversions, on any port. -/
def Obligations.ForwardConversionsAnswerTheCode : Prop :=
  ∀ s : State,
    (∀ x : BitVec 8, decode (0x01#8 ++ 0#24 ++ x) = .ok (.lfrom8 x) ∧
      ∃ d, exec (.lfrom8 x) s = .next (s.answer d) ∧ IsForwardCode s.cfg x.toNat d) ∧
    (∀ x : BitVec 16, decode (0x02#8 ++ 0#16 ++ x) = .ok (.lfrom16 x) ∧
      ∃ d, exec (.lfrom16 x) s = .next (s.answer d) ∧ IsForwardCode s.cfg x.toNat d) ∧
    (∀ x : BitVec 32, decode (0x03#8 ++ x) = .ok (.lfrom32 x) ∧
      ∃ d, exec (.lfrom32 x) s = .next (s.answer d) ∧ IsForwardCode s.cfg x.toNat d)

/-- R104, R113, R114: the two inverse conversions, on any port, saturating and rounding half up. -/
def Obligations.InverseConversionsAnswerTheInteger : Prop :=
  ∀ (s : State) (v : LogValue),
    decode (0x04#8 ++ 0#16 ++ v) = .ok (.lto16 v) ∧ decode (0x05#8 ++ 0#16 ++ v) = .ok (.lto32 v) ∧
    (∃ d, exec (.lto16 v) s = .next (s.answer d) ∧ IsInverseValue s.cfg 16 v d) ∧
    (∃ d, exec (.lto32 v) s = .next (s.answer d) ∧ IsInverseValue s.cfg 32 v d)

/-- R101 (a) to (f), for every admissible configuration. -/
def Obligations.ForwardTransformProperties : Prop :=
  ∀ c : Config, c.wf = true →
    (∀ x : U32, fromU32 c x = Config.logInvalid ↔ x = 0) ∧
    fromU32 c 1 = 0 ∧
    (∀ n : Nat, n ≤ 31 → (fromU32 c (BitVec.ofNat 32 (2 ^ n))).toInt = 512 * (n : Int)) ∧
    (∀ x : U32, x ≠ 0 → 0 ≤ (fromU32 c x).toInt ∧ (fromU32 c x).toInt ≤ 16383) ∧
    (∀ x y : U32, x.toNat < y.toNat → (fromU32 c x).toInt ≤ (fromU32 c y).toInt) ∧
    (∀ x y : U32, 1 ≤ x.toNat → x.toNat < y.toNat → y.toNat ≤ 511 → (fromU32 c x).toInt < (fromU32 c y).toInt) ∧
    (∀ x y : U32, x ≠ 0 → y ≠ 0 → Nat.log2 x.toNat = Nat.log2 y.toNat →
      x.toNat * 256 / 2 ^ Nat.log2 x.toNat % 256 = y.toNat * 256 / 2 ^ Nat.log2 y.toNat % 256 →
      fromU32 c x = fromU32 c y) ∧
    {v : LogValue | ∃ x : U32, x ≠ 0 ∧ fromU32 c x = v}.ncard ≤ 32 * 256

/-- R105 (a) to (g), for every admissible configuration. -/
def Obligations.InverseTransformProperties : Prop :=
  ∀ c : Config, c.wf = true →
    (toU16 c Config.logInvalid = 0 ∧ toU32 c Config.logInvalid = 0) ∧
    (∀ v : LogValue, (toU16 c v = 0 ↔ v.toInt < -512) ∧ (toU32 c v = 0 ↔ v.toInt < -512)) ∧
    (∀ v : LogValue, -512 ≤ v.toInt → v.toInt ≤ 0 → toU16 c v = 1 ∧ toU32 c v = 1) ∧
    (∀ n : Nat, n < 16 → (toU16 c (BitVec.ofNat 16 (512 * n))).toNat = 2 ^ n) ∧
    (∀ n : Nat, n < 32 → (toU32 c (BitVec.ofNat 16 (512 * n))).toNat = 2 ^ n) ∧
    (∀ v : LogValue, 8192 ≤ v.toInt → (toU16 c v).toNat = 65535) ∧
    (∀ v : LogValue, v.toInt < 8192 → (toU16 c v).toNat ≤ 65504) ∧
    (∀ v : LogValue, 16384 ≤ v.toInt → (toU32 c v).toNat = 4294967295) ∧
    (∀ v : LogValue, v.toInt < 16384 → (toU32 c v).toNat ≤ 4292870144) ∧
    (∀ v : LogValue, v.toInt < 8192 → (toU16 c v).toNat = (toU32 c v).toNat) ∧
    (∀ v w : LogValue, v.toInt ≤ w.toInt →
      (toU16 c v).toNat ≤ (toU16 c w).toNat ∧ (toU32 c v).toNat ≤ (toU32 c w).toNat)

/-- R107: the round-trip error with the reference tables, its bounds and where its extremes are. -/
def Obligations.RoundTripErrorOfTheReferenceTables : Prop :=
  let c := Config.reference
  let r16 : BitVec 16 → Int := fun x => ((toU16 c (fromU16 c x)).toNat : Int)
  let r32 : U32 → Int := fun x => ((toU32 c (fromU32 c x)).toNat : Int)
  (∀ n : Nat, 1 ≤ n → n ≤ 260 → r16 (BitVec.ofNat 16 n) = (n : Int) ∧ r32 (BitVec.ofNat 32 n) = (n : Int)) ∧
  (∀ n : Nat, n < 16 → r16 (BitVec.ofNat 16 ((2 : Nat) ^ n)) = ((2 ^ n : Nat) : Int)) ∧
  (∀ n : Nat, n < 32 → r32 (BitVec.ofNat 32 ((2 : Nat) ^ n)) = ((2 ^ n : Nat) : Int)) ∧
  (∀ x : BitVec 16, x ≠ 0 →
    -3861 * (x.toNat : Int) ≤ 1000000 * (r16 x - x.toNat) ∧ 1000000 * (r16 x - x.toNat) ≤ 3832 * x.toNat ∧
    (32768 - 32895) * (x.toNat : Int) ≤ 32895 * (r16 x - x.toNat) ∧
    261 * (r16 x - x.toNat) ≤ (262 - 261) * (x.toNat : Int)) ∧
  (r16 32895 = 32768 ∧ r16 261 = 262) ∧
  (∀ x : U32, x ≠ 0 →
    -3892 * (x.toNat : Int) ≤ 1000000 * (r32 x - x.toNat) ∧ 1000000 * (r32 x - x.toNat) ≤ 3832 * x.toNat ∧
    (2147483648 - 2155872255) * (x.toNat : Int) ≤ 2155872255 * (r32 x - x.toNat)) ∧
  r32 2155872255 = 2147483648

/-- R108: the reference tables meet the contract (T1 to T3 are part of `wf`, T5 holds by the types). -/
def Obligations.ReferenceTablesMeetTheContract : Prop :=
  Config.reference.wf = true ∧ TableT4 Config.reference

/-! ## LAU arithmetic (41_log_arith.md) -/

/-- R120, R121: product and quotient are the sum and the difference of the codes modulo 2^16, on any port. -/
def Obligations.MultiplyAndDivideAnswerWrappedSums : Prop :=
  ∀ (s : State) (a b : LogValue),
    decode (0x10#8 ++ b ++ a) = .ok (.lmul a b) ∧ decode (0x11#8 ++ b ++ a) = .ok (.ldiv a b) ∧
    exec (.lmul a b) s = .next (s.answer (0#16 ++ (a + b))) ∧
    exec (.ldiv a b) s = .next (s.answer (0#16 ++ (a - b)))

/-- R122 to R124: reciprocal, square with its two saturations, and reciprocal square, on any port. -/
def Obligations.ReciprocalAndSquaresAnswer : Prop :=
  ∀ (s : State) (a : LogValue),
    decode (0x12#8 ++ 0#16 ++ a) = .ok (.lrcp a) ∧ decode (0x13#8 ++ 0#16 ++ a) = .ok (.lsqr a) ∧
    decode (0x14#8 ++ 0#16 ++ a) = .ok (.lrsqr a) ∧
    exec (.lrcp a) s = .next (s.answer (0#16 ++ (-a))) ∧
    exec (.lsqr a) s = .next (s.answer (0#16 ++
      (if 16384 ≤ a.toInt then 0x7FFF#16 else if a.toInt ≤ -16384 then 0x8000#16 else a + a))) ∧
    exec (.lrsqr a) s = .next (s.answer (0#16 ++
      (if 16384 ≤ a.toInt then 0x8001#16 else if a.toInt ≤ -16384 then 0x8000#16 else -(a + a))))

/-- R125: minus half the code, rounded toward zero, in `[-16383, 16384]`, on any port. -/
def Obligations.ReciprocalRootTruncatesTowardZero : Prop :=
  ∀ (s : State) (a : LogValue), decode (0x15#8 ++ 0#16 ++ a) = .ok (.lrsqrt a) ∧
    ∃ r : LogValue, exec (.lrsqrt a) s = .next (s.answer (0#16 ++ r)) ∧
      r.toInt = (if 0 ≤ a.toInt then -(a.toInt / 2) else (-a.toInt) / 2) ∧
      -16383 ≤ r.toInt ∧ r.toInt ≤ 16384

/-- R126, R127: shifts by `n` add and subtract `512*n` modulo 2^16, on any port; the one undoes the other. -/
def Obligations.ShiftsMoveTheExponent : Prop :=
  ∀ (s : State) (a : LogValue) (n : BitVec 8),
    decode (0x16#8 ++ 0#8 ++ n ++ a) = .ok (.lshl a n) ∧ decode (0x17#8 ++ 0#8 ++ n ++ a) = .ok (.lshr a n) ∧
    exec (.lshl a n) s = .next (s.answer (0#16 ++ (a + n.setWidth 16 * 512))) ∧
    exec (.lshr a n) s = .next (s.answer (0#16 ++ (a - n.setWidth 16 * 512))) ∧
    shiftRight (shiftLeft a n) n = a

/-- R128 (a) to (e). -/
def Obligations.LogArithmeticLaws : Prop :=
  (∀ a b : LogValue, divide (multiply a b) b = a) ∧
  (∀ a b : LogValue, multiply a b = multiply b a) ∧
  (∀ a : LogValue, multiply a 0 = a) ∧
  (∀ a b : LogValue, divide a b = multiply a (reciprocal b)) ∧
  (∀ (a : LogValue) (n : BitVec 8), shiftLeft a n = multiply a (wrap16 (n.toNat * 512))) ∧
  (∀ a : LogValue, square a = multiply a a ↔ -16384 ≤ a.toInt ∧ a.toInt ≤ 16383)

/-- R129: the sentinel through every operation, and when the result is the sentinel again. -/
def Obligations.SentinelThroughEveryOperation : Prop :=
  let I := Config.logInvalid
  (∀ a : LogValue, a ≠ I →
    multiply I a = wrap16 (a.toInt - 32768) ∧ multiply a I = wrap16 (a.toInt - 32768) ∧
    (multiply I a = I ↔ a = 0) ∧
    divide I a = wrap16 (-32768 - a.toInt) ∧ (divide I a = I ↔ a = 0) ∧
    divide a I = wrap16 (a.toInt + 32768) ∧ (divide a I = I ↔ a = 0)) ∧
  multiply I I = 0 ∧ divide I I = 0 ∧ reciprocal I = I ∧ square I = I ∧ reciprocalSquare I = I ∧
  (reciprocalSqrt I).toInt = 16384 ∧
  (∀ n : BitVec 8,
    shiftLeft I n = wrap16 (-32768 + n.toNat * 512) ∧ shiftRight I n = wrap16 (-32768 - n.toNat * 512) ∧
    (shiftLeft I n = I ↔ n.toNat % 128 = 0) ∧ (shiftRight I n = I ↔ n.toNat % 128 = 0)) ∧
  ∀ c : Config, toU16 c I = 0 ∧ toU32 c I = 0

/-! ## The queue (42_queue.md) -/

/-- R141: `QPUSH`, its port, its three refusals in order, and on success one slot, the index and the counter. -/
def Obligations.QpushStoresTheEntryOrRefuses : Prop :=
  ∀ (s : State) (ticks : BitVec 20) (stepsb : BitVec 8) (dir pause : Bool),
    decode (0x20#8 ++ 0#2 ++ BitVec.ofBool pause ++ BitVec.ofBool dir ++ stepsb ++ ticks) =
      .ok (.qpush ticks stepsb dir pause) ∧
    (s.port ≠ .rt → exec (.qpush ticks stepsb dir pause) s = .next (s.raise .portViolation)) ∧
    (s.port = .rt →
      if (s.cq.writeIdx + 1) % (s.cfg.queueLen + 1) = s.cq.readIdx then
        exec (.qpush ticks stepsb dir pause) s = .next (s.raise .queueFull)
      else if 65535 < ticks.toNat then
        exec (.qpush ticks stepsb dir pause) s = .next (s.raise .ticksOutOfRange)
      else if 127 < stepsb.toNat then
        exec (.qpush ticks stepsb dir pause) s = .next (s.raise .stepsOutOfRange)
      else
        ∃ m : Memory,
          exec (.qpush ticks stepsb dir pause) s = .next
            (State.answer
              { s with cq := { s.cq with
                  slot := m
                  writeIdx := (s.cq.writeIdx + 1) % (s.cfg.queueLen + 1)
                  netDisp := if dir then s.cq.netDisp + stepsb.setWidth 32
                             else s.cq.netDisp - stepsb.setWidth 32 } } 0) ∧
          ∀ j, m.read j =
            if j = s.cq.writeIdx then some ⟨ticks.setWidth 16, stepsb, dir, pause⟩ else s.cq.slot.read j)

/-- R142: `QPOP`, its port, "none" on an empty queue, else the entry at `read_idx` in the layout of R85 with the valid
bit; only `read_idx` moves. Every queue that is not empty answers an entry; where the slot holds a value, that one. -/
def Obligations.QpopAnswersTheOldestEntry : Prop :=
  ∀ s : State, decode 0x2100000000 = .ok .qpop ∧
    (s.port ≠ .emit → exec .qpop s = .next (s.raise .portViolation)) ∧
    (s.port = .emit → s.cq.readIdx = s.cq.writeIdx → exec .qpop s = .next (s.answer 0)) ∧
    (s.port = .emit → s.cq.readIdx ≠ s.cq.writeIdx →
      ∃ e : QueueEntry,
        exec .qpop s = .next
          (State.answer { s with cq := { s.cq with readIdx := (s.cq.readIdx + 1) % (s.cfg.queueLen + 1) } }
            (1#1 ++ 0#1 ++ BitVec.ofBool e.pause ++ BitVec.ofBool e.dir ++ e.steps ++ 0#4 ++ e.ticks)) ∧
        ∀ e', s.cq.slot.read s.cq.readIdx = some e' → e = e')

/-- R143, R144, R146: the two index comparisons, on any port (with the indices in the range of R39 they compare
`cq.count`), and the sum of the two counters in one command; none of them changes the queue. -/
def Obligations.QueueObserversAnswerWhatTheyCompute : Prop :=
  ∀ s : State,
    decode 0x2200000000 = .ok .qempty ∧ decode 0x2300000000 = .ok .qfull ∧ decode 0x2500000000 = .ok .qend ∧
    exec .qempty s = .next (s.answer (if s.cq.readIdx = s.cq.writeIdx then 1 else 0)) ∧
    exec .qfull s = .next
      (s.answer (if (s.cq.writeIdx + 1) % (s.cfg.queueLen + 1) = s.cq.readIdx then 1 else 0)) ∧
    (s.cq.readIdx ≤ s.cfg.queueLen → s.cq.writeIdx ≤ s.cfg.queueLen →
      (s.isEmpty = true ↔ s.count = 0) ∧ (s.isFull = true ↔ s.count = s.cfg.queueLen)) ∧
    (s.port = .emit → exec .qend s = .next (s.raise .portViolation)) ∧
    (s.port ≠ .emit → exec .qend s = .next (s.answer (s.cq.livePos + s.cq.netDisp)))

/-- R145: `QACK` moves the steps from the queued counter to the live position, or refuses a set flags bit. -/
def Obligations.QackMovesStepsToTheLivePosition : Prop :=
  ∀ (s : State) (stepsb : BitVec 8) (dir : Bool),
    decode (0x24#8 ++ 0#3 ++ BitVec.ofBool dir ++ stepsb ++ 0#20) = .ok (.qack stepsb dir) ∧
    (s.port ≠ .emit → exec (.qack stepsb dir) s = .next (s.raise .portViolation)) ∧
    (s.port = .emit → 127 < stepsb.toNat → exec (.qack stepsb dir) s = .next (s.raise .stepsOutOfRange)) ∧
    (s.port = .emit → stepsb.toNat ≤ 127 →
      exec (.qack stepsb dir) s = .next
        (State.answer
          { s with cq := { s.cq with
              livePos := if dir then s.cq.livePos + stepsb.setWidth 32 else s.cq.livePos - stepsb.setWidth 32
              netDisp := if dir then s.cq.netDisp - stepsb.setWidth 32
                         else s.cq.netDisp + stepsb.setWidth 32 } } 0))

/-- R147(d): a `QPUSH` answered `OK` moves `qend()` by the signed steps of its entry; every other outcome of every
command but `INIT`, a refused `QPUSH`, a pop and an acknowledgment among them, leaves `qend()` as it was. -/
def Obligations.QueueEndMovesWithPushesOnly : Prop :=
  ∀ (i : Instr) (s t : State), exec i s = .next t →
    (∀ (ticks : BitVec 20) (stepsb : BitVec 8) (dir pause : Bool), i = .qpush ticks stepsb dir pause →
      t.outbox = s.outbox ++ [⟨s.port, .ok, 0⟩] →
      t.qend = (if dir then s.qend + stepsb.setWidth 32 else s.qend - stepsb.setWidth 32)) ∧
    (i ≠ .init →
      (∀ (ticks : BitVec 20) (stepsb : BitVec 8) (dir pause : Bool), i = .qpush ticks stepsb dir pause →
        t.outbox ≠ s.outbox ++ [⟨s.port, .ok, 0⟩]) →
      t.qend = s.qend)

/-- Every step keeps the queue invariant: indices in range, stored entries in range, every slot in flight holding a value
(R38 to R41); and the canonical form of the memory, which is the model's own (log entry 8). -/
def Obligations.EveryStepKeepsTheQueueInvariant : Prop :=
  ∀ s t : State, QueueInv s → step s = .next t → QueueInv t

/-- R147(a) to (c): under the queue invariant the ring is a first-in first-out list of at most `QUEUE_LEN` entries. A
successful push appends its entry, a pop answers and removes the oldest, `INIT` empties it, nothing else changes it. -/
def Obligations.TheRingRefinesAFirstInFirstOutList : Prop :=
  ∀ s : State, QueueInv s →
    s.inFlight.length ≤ s.cfg.queueLen ∧
    (s.isEmpty = true ↔ s.inFlight = []) ∧
    (s.isFull = true ↔ s.inFlight.length = s.cfg.queueLen) ∧
    (∀ (ticks : BitVec 20) (stepsb : BitVec 8) (dir pause : Bool), s.port = .rt →
      s.inFlight.length < s.cfg.queueLen → ticks.toNat ≤ 65535 → stepsb.toNat ≤ 127 →
      ∃ t, exec (.qpush ticks stepsb dir pause) s = .next t ∧
        t.inFlight = s.inFlight ++ [⟨ticks.setWidth 16, stepsb, dir, pause⟩]) ∧
    (∀ (e : QueueEntry) (rest : List QueueEntry), s.port = .emit → s.inFlight = e :: rest →
      ∃ t, exec .qpop s = .next t ∧ t.inFlight = rest ∧
        t.outbox = s.outbox ++ [⟨.emit, .ok, entryWord true e⟩]) ∧
    (s.port = .app → ∃ t, exec .init s = .next t ∧ t.inFlight = []) ∧
    (∀ (i : Instr) (t : State), exec i s = .next t → i ≠ .qpop → i ≠ .init →
      (∀ a b c d, i ≠ .qpush a b c d) → t.inFlight = s.inFlight)

/-! ## Staging (43_params.md) and reset (10_state.md, 70_reset_and_hazards.md) -/

/-- R250: the reset state, for every configuration. The slots hold no value there, which the spec leaves unspecified
(log entry 8), and the interface fields are the model's (log entries 3, 5, 6); this states the registers. -/
def Obligations.ResetValues : Prop :=
  ∀ c : Config,
    (State.resetWith c).p = ⟨0, 0, 0, false, false, false, false⟩ ∧
    (State.resetWith c).ro = ⟨0, 0, 0, false, false⟩ ∧
    (State.resetWith c).rw =
      { phase := .idle, dir := false, vel := 0x8000, pos := 0, rampSteps := 0, target := 0, keep := false,
        keepDir := false, accel := 0, speed := 0, reload := false, incomplete := false } ∧
    (State.resetWith c).req = ⟨false, false⟩ ∧
    (State.resetWith c).cq.readIdx = 0 ∧ (State.resetWith c).cq.writeIdx = 0 ∧
    (State.resetWith c).cq.netDisp = 0 ∧ (State.resetWith c).cq.livePos = 0 ∧
    (State.resetWith c).cfg = c

/-- R160, R251: `INIT` puts every register into its reset value, from any state; the slots keep their content. -/
def Obligations.InitRestoresTheResetState : Prop :=
  ∀ s : State, decode 0x3000000000 = .ok .init ∧
    (s.port ≠ .app → exec .init s = .next (s.raise .portViolation)) ∧
    (s.port = .app →
      exec .init s = .next
        (State.answer
          { State.resetWith s.cfg with
            cq := { (State.resetWith s.cfg).cq with slot := s.cq.slot }
            port := s.port, inbox := s.inbox, outbox := s.outbox } 0))

/-- R161: `PACC` refuses values that are not positive as signed numbers and stages the others. -/
def Obligations.PaccStagesAPositiveAcceleration : Prop :=
  ∀ (s : State) (x : BitVec 32), decode (0x31#8 ++ x) = .ok (.pacc x) ∧
    (s.port ≠ .app → exec (.pacc x) s = .next (s.raise .portViolation)) ∧
    (s.port = .app → x.toInt ≤ 0 → exec (.pacc x) s = .next (s.raise .invalidAcceleration)) ∧
    (s.port = .app → 0 < x.toInt →
      exec (.pacc x) s = .next (State.answer { s with p := { s.p with accel := x, dirty := true } } 0))

/-- R162 to R164: the raw setters write their fields and `dirty`, test nothing and leave `apply` alone. -/
def Obligations.RawSettersStageTheirFields : Prop :=
  ∀ (s : State) (x : BitVec 32) (flag dir : Bool),
    decode (0x32#8 ++ x) = .ok (.pspd x) ∧ decode (0x33#8 ++ x) = .ok (.ptgt x) ∧
    decode (0x34#8 ++ 0#30 ++ BitVec.ofBool dir ++ BitVec.ofBool flag) = .ok (.pkeep flag dir) ∧
    (s.port ≠ .app →
      exec (.pspd x) s = .next (s.raise .portViolation) ∧ exec (.ptgt x) s = .next (s.raise .portViolation) ∧
      exec (.pkeep flag dir) s = .next (s.raise .portViolation)) ∧
    (s.port = .app →
      exec (.pspd x) s = .next (State.answer { s with p := { s.p with speed := x, dirty := true } } 0) ∧
      exec (.ptgt x) s = .next (State.answer { s with p := { s.p with target := x, dirty := true } } 0) ∧
      exec (.pkeep flag dir) s = .next
        (State.answer { s with p := { s.p with keep := flag, keepDir := dir, dirty := true } } 0))

/-- R165, R166: `PCHK` reports a missing acceleration before a missing speed limit, and changes nothing. -/
def Obligations.PchkReportsWhatIsMissing : Prop :=
  ∀ s : State, decode 0x3500000000 = .ok .pchk ∧
    (s.port ≠ .app → exec .pchk s = .next (s.raise .portViolation)) ∧
    (s.port = .app →
      exec .pchk s = .next
        (if s.p.accel = 0 then s.raise .missingAcceleration
         else if s.p.speed = 0 then s.raise .missingSpeedLimit else s.answer 0))

/-- R167: `PUB` copies the five fields as one unit, raises `reload` when `apply` was set, clears both flags. -/
def Obligations.PubPublishesTheStagedRecord : Prop :=
  ∀ s : State, decode 0x3600000000 = .ok .pub ∧
    (s.port ≠ .rt → exec .pub s = .next (s.raise .portViolation)) ∧
    (s.port = .rt → s.p.dirty = false → exec .pub s = .next (s.answer 0)) ∧
    (s.port = .rt → s.p.dirty = true →
      exec .pub s = .next
        (State.answer
          { s with
            ro := { target := s.p.target, accel := s.p.accel, speed := s.p.speed, keep := s.p.keep,
                    keepDir := s.p.keepDir }
            rw := { s.rw with reload := s.rw.reload || s.p.apply }
            p := { s.p with dirty := false, apply := false } } 1))

/-- R168(a) and the ranges of R28: every step keeps the staging invariant. -/
def Obligations.EveryStepKeepsTheStagingInvariant : Prop :=
  ∀ s t : State, StagedInv s → step s = .next t → StagedInv t

/-! ## The sequencer's commands (44_ramp.md sections 2 to 4) -/

/-- R183: `RRUN` checks the configuration, then stages a keep-running request. -/
def Obligations.RrunStagesAKeepRunningRequest : Prop :=
  ∀ (s : State) (dir : Bool), decode (0x40#8 ++ 0#31 ++ BitVec.ofBool dir) = .ok (.rrun dir) ∧
    (s.port ≠ .app → exec (.rrun dir) s = .next (s.raise .portViolation)) ∧
    (s.port = .app → s.missing ≠ .ok → exec (.rrun dir) s = .next (s.raise s.missing)) ∧
    (s.port = .app → s.p.accel ≠ 0 → s.p.speed ≠ 0 →
      exec (.rrun dir) s = .next
        (State.answer { s with p := { s.p with keep := true, keepDir := dir, dirty := true, apply := true } } 1))

/-- R182, R184: `RMOVT` checks the configuration, is a no-op on the implied end, and else commits the target. The implied
end is where the motion already requested comes to rest; the most recent request wins. -/
def Obligations.RmovtCommitsANewTarget : Prop :=
  ∀ (s : State) (x : Position), decode (0x41#8 ++ x) = .ok (.rmovt x) ∧
    (s.impliedEnd =
      if s.req.gstop = true ∨ s.req.istop = true then none
      else if s.p.apply = true then (if s.p.keep then none else some s.p.target)
      else if s.rw.reload = true then (if s.ro.keep then none else some s.ro.target)
      else if s.rw.phase ≠ .idle then (if s.rw.keep then none else some s.rw.target)
      else some (s.cq.livePos + s.cq.netDisp)) ∧
    (s.port ≠ .app → exec (.rmovt x) s = .next (s.raise .portViolation)) ∧
    (s.port = .app → s.missing ≠ .ok → exec (.rmovt x) s = .next (s.raise s.missing)) ∧
    (s.port = .app → s.p.accel ≠ 0 → s.p.speed ≠ 0 → s.impliedEnd = some x →
      exec (.rmovt x) s = .next (s.answer 0)) ∧
    (s.port = .app → s.p.accel ≠ 0 → s.p.speed ≠ 0 → s.impliedEnd ≠ some x →
      exec (.rmovt x) s = .next
        (State.answer { s with p := { s.p with target := x, keep := false, dirty := true, apply := true } } 1))

/-- R185: `RMOVE` moves from the implied end, or from the queue's end when there is none; it is a no-op exactly when
there is an implied end and the distance is 0. -/
def Obligations.RmoveCommitsARelativeTarget : Prop :=
  ∀ (s : State) (d : Position), decode (0x42#8 ++ d) = .ok (.rmove d) ∧
    (s.port ≠ .app → exec (.rmove d) s = .next (s.raise .portViolation)) ∧
    (s.port = .app → s.missing ≠ .ok → exec (.rmove d) s = .next (s.raise s.missing)) ∧
    (s.port = .app → s.p.accel ≠ 0 → s.p.speed ≠ 0 → s.impliedEnd ≠ none → d = 0 →
      exec (.rmove d) s = .next (s.answer 0)) ∧
    (s.port = .app → s.p.accel ≠ 0 → s.p.speed ≠ 0 → (s.impliedEnd = none ∨ d ≠ 0) →
      exec (.rmove d) s = .next
        (State.answer
          { s with p := { s.p with
              target := s.impliedEnd.getD (s.cq.livePos + s.cq.netDisp) + d
              keep := false, dirty := true, apply := true } } 1))

/-- R186: `RADV` extends the staged target while a fixed-target ramp runs, and else changes nothing. -/
def Obligations.RadvExtendsARunningMove : Prop :=
  ∀ (s : State) (d : Position), decode (0x43#8 ++ d) = .ok (.radv d) ∧
    (s.port ≠ .app → exec (.radv d) s = .next (s.raise .portViolation)) ∧
    (s.port = .app → (s.rw.phase = .idle ∨ s.rw.keep = true ∨ s.p.keep = true) →
      exec (.radv d) s = .next (s.answer 0)) ∧
    (s.port = .app → s.rw.phase ≠ .idle → s.rw.keep = false → s.p.keep = false →
      exec (.radv d) s = .next
        (State.answer { s with p := { s.p with target := s.p.target + d, dirty := true, apply := true } } 1))

/-- R187, R188: the two stop requests, from APP and from RT. -/
def Obligations.StopRequestsSetTheirFlag : Prop :=
  ∀ s : State, decode 0x4400000000 = .ok .rstop ∧ decode 0x4500000000 = .ok .ristop ∧
    (s.port = .emit →
      exec .rstop s = .next (s.raise .portViolation) ∧ exec .ristop s = .next (s.raise .portViolation)) ∧
    (s.port ≠ .emit →
      exec .rstop s = .next (State.answer { s with req := { s.req with gstop := true } } 0) ∧
      exec .ristop s = .next (State.answer { s with req := { s.req with istop := true } } 0))

/-- R189: `RGACC`, by phase and direction. For an acceleration in effect above 2^31 - 1, which R35(d) excludes and no run
reaches, the pattern answered is the model's (log entry 10). -/
def Obligations.RgaccAnswersTheSignedAcceleration : Prop :=
  ∀ s : State, decode 0x4600000000 = .ok .rgacc ∧
    (s.port = .emit → exec .rgacc s = .next (s.raise .portViolation)) ∧
    (s.port ≠ .emit →
      exec .rgacc s = .next (s.answer
        (if (s.rw.phase = .accelerating ∧ s.rw.dir = true) ∨ (s.rw.phase = .decelerating ∧ s.rw.dir = false) then
          s.rw.accel
        else if (s.rw.phase = .accelerating ∧ s.rw.dir = false) ∨ (s.rw.phase = .decelerating ∧ s.rw.dir = true) then
          -s.rw.accel
        else 0)))

/-! ## `RCOMP` (44_ramp.md sections 5 to 8) -/

/-- R190: the velocity code of ramp step `k`, its range, and that it does not fall with `k`. -/
def Obligations.VelocityCodeOfARampStep : Prop :=
  ∀ (c : Config) (a : U32), c.wf = true → a ≠ 0 → a.toNat ≤ 2 ^ 31 - 1 →
    velcode c 0 (fromU32 c a) = Config.logInvalid ∧
    (∀ k, 1 ≤ k → k ≤ 2 ^ 32 - 1 →
      (velcode c k (fromU32 c a)).toInt =
        ((fromU32 c a).toInt + 512 + (fromU32 c (BitVec.ofNat 32 k)).toInt) / 2 ∧
      256 ≤ (velcode c k (fromU32 c a)).toInt ∧ (velcode c k (fromU32 c a)).toInt ≤ 16383) ∧
    (∀ j k, 1 ≤ j → j ≤ k → k ≤ 2 ^ 32 - 1 →
      (velcode c j (fromU32 c a)).toInt ≤ (velcode c k (fromU32 c a)).toInt)

/-- R191: the tick interval of a step is `TICK_HZ / v` in the log domain, clamped to `1..65535`. -/
def Obligations.TickIntervalIsClamped : Prop :=
  ∀ (c : Config) (vel : LogValue),
    (stepTicks c vel).toNat = max 1 (min 65535 (toU16 c (fromU32 c c.tickHz - vel)).toNat) ∧
    1 ≤ (stepTicks c vel).toNat ∧ (stepTicks c vel).toNat ≤ 65535

/-- R193, R205(a), (b), R228: on the RT port `RCOMP` answers an entry in every state; it writes `rw` and clears `req`
only; a null entry moves nothing and a step entry moves the position by one in its direction. -/
def Obligations.RcompAlwaysAnswersAnEntry : Prop :=
  ∀ s : State, decode 0x4700000000 = .ok .rcomp ∧
    (s.port ≠ .rt → exec .rcomp s = .next (s.raise .portViolation)) ∧
    (s.port = .rt →
      ∃ (rw : Running) (e : QueueEntry),
        exec .rcomp s = .next (State.answer { s with rw := rw, req := ⟨false, false⟩ } (entryWord true e)) ∧
        rw.reload = false ∧
        ((e = ⟨0, 0, s.rw.dir, false⟩ ∧ rw.phase = .idle ∧ rw.vel = Config.logInvalid ∧ rw.pos = s.rw.pos ∧
            rw.dir = s.rw.dir) ∨
         (e.steps = 1 ∧ 1 ≤ e.ticks.toNat ∧ e.pause = false ∧ e.dir = rw.dir ∧
            rw.pos = if e.dir then s.rw.pos + 1 else s.rw.pos - 1)))

/-- R194: a pending immediate stop is served alone: the null entry, the flags cleared, `Idle`, and an incomplete stop
recorded when a ramp was in flight; the counters keep their values. -/
def Obligations.ImmediateStopNullsTheNextEntry : Prop :=
  ∀ s : State, s.port = .rt → s.req.istop = true →
    exec .rcomp s = .next
      (State.answer
        { s with
          req := ⟨false, false⟩
          rw := { s.rw with
            phase := .idle, vel := Config.logInvalid, reload := false
            incomplete := if s.rw.phase = .idle then s.rw.incomplete else true } }
        (entryWord true ⟨0, 0, s.rw.dir, false⟩))

/-- R195, R196, R197, in the order of R193: with no immediate stop pending, a recorded incomplete stop is reconciled
first; then a published request is latched, and when the acceleration changes under a moving ramp the stopping distance
`v^2 / (2*a')` is recomputed, at least 1; then a graceful stop makes the stopping distance ahead the target. -/
def Obligations.PendingEventsAreServedInOrder : Prop :=
  ∀ s : State, s.port = .rt → s.req.istop = false →
    (s.rw.incomplete = true →
      exec .rcomp s = exec .rcomp
        { s with rw := { s.rw with incomplete := false, rampSteps := 0, target := s.rw.pos, keep := false } }) ∧
    (s.rw.incomplete = false → s.rw.reload = true →
      exec .rcomp s = exec .rcomp
        { s with rw := { s.rw with
            reload := false, target := s.ro.target, keep := s.ro.keep, keepDir := s.ro.keepDir
            accel := s.ro.accel, speed := s.ro.speed
            rampSteps :=
              if s.rw.rampSteps ≠ 0 ∧ s.rw.accel ≠ s.ro.accel ∧ s.ro.accel ≠ 0 then
                (let n := toU32 s.cfg (square s.rw.vel - (fromU32 s.cfg s.ro.accel + 512))
                 if n = 0 then 1 else n)
              else s.rw.rampSteps } }) ∧
    (s.rw.incomplete = false → s.rw.reload = false → s.req.gstop = true →
      exec .rcomp s = exec .rcomp
        { s with
          req := { s.req with gstop := false }
          rw := { s.rw with
            keep := false
            target := if s.rw.dir then s.rw.pos + s.rw.rampSteps else s.rw.pos - s.rw.rampSteps } })

/-- R198: with nothing pending, `RCOMP` rests when no acceleration or speed is in effect, or on the target with at most
one ramp step left: the null entry, `Idle`, the ramp given up. -/
def Obligations.RcompRestsWhenThereIsNothingToDo : Prop :=
  ∀ s : State, s.port = .rt → s.nothingPending →
    (s.rw.accel = 0 ∨ s.rw.speed = 0 ∨
      (s.rw.keep = false ∧ s.rw.pos = s.rw.target ∧ s.rw.rampSteps.toNat ≤ 1)) →
    exec .rcomp s = .next
      (State.answer
        { s with rw := { s.rw with phase := .idle, vel := Config.logInvalid, rampSteps := 0 } }
        (entryWord true ⟨0, 0, s.rw.dir, false⟩))

/-- R198 to R201, R203: with nothing pending and somewhere to go, `RCOMP` takes one step: direction and distance, the
decision on the phase, the entry with the interval of the step's velocity, the new counters, and the end of the ramp. -/
def Obligations.RcompTakesOneStepAlongTheRamp : Prop :=
  ∀ s : State, s.port = .rt → s.nothingPending → s.rw.accel ≠ 0 → s.rw.speed ≠ 0 →
    ¬(s.rw.keep = false ∧ s.rw.pos = s.rw.target ∧ s.rw.rampSteps.toNat ≤ 1) →
    let n := s.rw.rampSteps.toNat
    let delta := (s.rw.target - s.rw.pos).toInt
    let want := if s.rw.keep then s.rw.keepDir else if delta = 0 then s.rw.dir else decide (0 < delta)
    let vc : Nat → LogValue := fun k => velcode s.cfg k (fromU32 s.cfg s.rw.accel)
    let V := fromU32 s.cfg s.rw.speed
    let rv : Nat → LogValue := fun k =>
      if (vc k).toInt ≤ V.toInt then vc k
      else if 2 ≤ k ∧ V.toInt ≤ (vc (k - 1)).toInt then vc k else V
    let tooFast := 2 ≤ n ∧ V.toInt ≤ (vc (n - 1)).toInt
    let d : Decision :=
      if n = 0 then ⟨.accelerating, 1, 1, want⟩
      else if s.rw.dir ≠ want ∨ (s.rw.keep = false ∧ delta.natAbs ≤ n) ∨ tooFast then
        ⟨.decelerating, n, n - 1, s.rw.dir⟩
      else if (s.rw.keep = true ∨ n + 2 ≤ delta.natAbs) ∧ (vc n).toInt < V.toInt ∧ n < 2 ^ 32 - 1 then
        ⟨.accelerating, n + 1, n + 1, s.rw.dir⟩
      else ⟨.coasting, n, n, s.rw.dir⟩
    let pos := if d.dir then s.rw.pos + 1 else s.rw.pos - 1
    let ended := s.rw.keep = false ∧ pos = s.rw.target ∧ d.sn ≤ 1
    exec .rcomp s = .next
      (State.answer
        { s with rw := { s.rw with
            dir := d.dir, pos := pos
            phase := if ended then .idle else d.phase
            rampSteps := if ended then 0 else BitVec.ofNat 32 d.sn
            vel := if ended ∨ d.sn = 0 then Config.logInvalid else rv d.sn } }
        (entryWord true ⟨stepTicks s.cfg (rv d.k), 1, d.dir, false⟩))

/-- R181, R89, R90 (`RFILL`): on a queue that is not full, the entry an `RCOMP` answers, placed in the operand of a
`QPUSH`, is accepted, and when the queue's end was the sequencer's position before, it is after. -/
def Obligations.RfillKeepsBothPositionCountsTogether : Prop :=
  ∀ s : State, s.port = .rt → s.isFull = false → s.qend = s.rw.pos →
    ∃ (t u : State) (data : BitVec 32) (i : Instr),
      exec .rcomp s = .next t ∧ t.outbox = s.outbox ++ [⟨.rt, .ok, data⟩] ∧
      decode (0x20#8 ++ 0#2 ++ data.extractLsb' 0 30) = .ok i ∧
      exec i t = .next u ∧ u.outbox = t.outbox ++ [⟨.rt, .ok, 0⟩] ∧
      u.cq.writeIdx = (s.cq.writeIdx + 1) % (s.cfg.queueLen + 1) ∧ u.rw = t.rw ∧ u.qend = u.rw.pos

/-- R35: with admissible parameters and the ranges of the staging area, every step keeps the invariants (a) to (d). -/
def Obligations.EveryStepKeepsTheRampInvariant : Prop :=
  ∀ s t : State, s.cfg.wf = true → StagedInv s → RampInv s → step s = .next t → RampInv t

/-- The invariants hold at reset, for every admissible configuration. -/
def Obligations.InvariantsHoldAtReset : Prop := ∀ c : Config, c.wf = true → Inv (State.resetWith c)

/-- Whatever commands the three agents present, in whatever order, the invariants of R35, R40, R41 and R168 hold after
every number of steps from reset. -/
def Obligations.EveryRunFromResetKeepsTheInvariants : Prop :=
  ∀ (c : Config) (commands : List Command) (n : Nat) (t : State), c.wf = true →
    Sys2Proof.core.run n { State.resetWith c with inbox := commands } = .next t → Inv t

/-- R205(e), R203: from rest, with nothing pending and a target `D` steps away, exactly `D` `RCOMP`s bring the ramp to
rest on the target, each moving the position by one towards it, and none before the last rests. -/
def Obligations.AMoveFromRestTakesExactlyItsDistance : Prop :=
  ∀ s : State, s.nothingPending → s.hasTarget → s.rw.rampSteps = 0 → s.rw.pos ≠ s.rw.target →
    let D := (s.rw.target - s.rw.pos).toInt.natAbs
    ∀ n, 1 ≤ n → n ≤ D →
      ∃ t, RcompRun n s t ∧
        t.rw.pos = (if 0 < (s.rw.target - s.rw.pos).toInt then s.rw.pos + BitVec.ofNat 32 n
                    else s.rw.pos - BitVec.ofNat 32 n) ∧
        (n < D → t.rw.phase ≠ .idle) ∧ (n = D → t.atRest)

/-- R205(e), FAS §8: such a move visits `Accelerating`, `Coasting`, `Decelerating`, `Idle` in that order. No phase is
followed by an earlier one; and with `P` the ramp step it peaks at (the first whose velocity reaches the limit, or half the
distance when that comes first) the phase is `Accelerating` after each of the first `P` entries, then `Coasting` after
`D - 2*P` (none or one on a move cut short), then `Decelerating` until the last, and `Idle` after the last: for `D = 1`
after the only one. So a move longer than twice the ramp length `L` at the limit coasts, and is seen decelerating when
`L >= 2`; with `L = 1` its one decelerating entry is the last, after which the phase is `Idle` (R203). -/
def Obligations.AMoveFromRestVisitsItsPhasesInOrder : Prop :=
  ∀ s : State, s.nothingPending → s.hasTarget → s.rw.rampSteps = 0 → s.rw.pos ≠ s.rw.target →
    let D := (s.rw.target - s.rw.pos).toInt.natAbs
    let vc : Nat → Int := fun k => (velcode s.cfg k (fromU32 s.cfg s.rw.accel)).toInt
    let V : Int := (fromU32 s.cfg s.rw.speed).toInt
    (∀ (m n : Nat) (t u : State), 1 ≤ m → m ≤ n → n ≤ D →
      RcompRun m s t → RcompRun n s u → t.rw.phase.rank ≤ u.rw.phase.rank) ∧
    (∃ P : Nat, 2 * P ≤ D ∧ (2 ≤ D → 1 ≤ P) ∧ (∀ k, 1 ≤ k → k < P → vc k < V) ∧ (V ≤ vc P ∨ P = D / 2) ∧
      ∀ (n : Nat) (t : State), 1 ≤ n → n ≤ D → RcompRun n s t →
        t.rw.phase =
          if n = D then .idle else if n ≤ P then .accelerating else if n ≤ D - P then .coasting else .decelerating) ∧
    (∀ L : Nat, 1 ≤ L → (∀ k, 1 ≤ k → k < L → vc k < V) → V ≤ vc L → 2 * L < D →
      (∃ t, RcompRun 1 s t ∧ t.rw.phase = .accelerating) ∧
      (∃ t, RcompRun (L + 1) s t ∧ t.rw.phase = .coasting) ∧
      (2 ≤ L → ∃ t, RcompRun (D - 1) s t ∧ t.rw.phase = .decelerating) ∧
      ∃ t, RcompRun D s t ∧ t.rw.phase = .idle)

/-- R205(d): from every state with nothing pending, a fixed target and an acceleration and speed in effect, a finite
number of `RCOMP`s brings the ramp to rest on the target, and every `RCOMP` after that, however many follow, answers the
null entry and changes nothing. (R205(d) does not name the acceleration and the speed; without them R198 rests the ramp
where it is, as `95_test_vectors.md` section 7.6 shows: log entry 12.) -/
def Obligations.EveryFixedTargetRampComesToRest : Prop :=
  ∀ s : State, s.nothingPending → s.hasTarget →
    ∃ (n : Nat) (t : State), RcompRun n s t ∧ t.atRest ∧ t.rw.target = s.rw.target ∧
      ∀ m : Nat,
        RcompRun m { t with port := .rt }
          { t with
            port := .rt, inbox := []
            outbox := t.outbox ++ List.replicate m ⟨.rt, .ok, entryWord true ⟨0, 0, t.rw.dir, false⟩⟩ }

/-- R197: a graceful stop at ramp step `k` brings the ramp to rest exactly `k` steps on in the direction of motion, in
`k` decelerating entries. -/
def Obligations.AGracefulStopRestsAfterTheStoppingDistance : Prop :=
  ∀ s : State, s.req.istop = false → s.rw.incomplete = false → s.rw.reload = false → s.req.gstop = true →
    s.rw.accel ≠ 0 → s.rw.speed ≠ 0 → 1 ≤ s.rw.rampSteps.toNat → s.rw.rampSteps.toNat < 2 ^ 31 →
    (∀ n, 1 ≤ n → n < s.rw.rampSteps.toNat → ∃ t, RcompRun n s t ∧ t.rw.phase = .decelerating) ∧
    ∃ t, RcompRun s.rw.rampSteps.toNat s t ∧ t.atRest ∧
      t.rw.pos = if s.rw.dir then s.rw.pos + s.rw.rampSteps else s.rw.pos - s.rw.rampSteps
end

