-- ==== Sys2Proof/Laws/State.lean ====
section
/-! SUPPORT. One lemma for each field of `State` under each update of it, true by `rfl`, so that no proof unfolds a record
update. -/

namespace Sys2Proof.Machine

open Sys2Proof

@[simp] theorem State.withP_cfg (s : State) (x : Params) : (s.withP x).cfg = s.cfg := rfl
@[simp] theorem State.withP_p (s : State) (x : Params) : (s.withP x).p = x := rfl
@[simp] theorem State.withP_ro (s : State) (x : Params) : (s.withP x).ro = s.ro := rfl
@[simp] theorem State.withP_rw (s : State) (x : Params) : (s.withP x).rw = s.rw := rfl
@[simp] theorem State.withP_req (s : State) (x : Params) : (s.withP x).req = s.req := rfl
@[simp] theorem State.withP_cq (s : State) (x : Params) : (s.withP x).cq = s.cq := rfl
@[simp] theorem State.withP_port (s : State) (x : Params) : (s.withP x).port = s.port := rfl
@[simp] theorem State.withP_inbox (s : State) (x : Params) : (s.withP x).inbox = s.inbox := rfl
@[simp] theorem State.withP_outbox (s : State) (x : Params) : (s.withP x).outbox = s.outbox := rfl

@[simp] theorem State.withRo_cfg (s : State) (x : Snapshot) : (s.withRo x).cfg = s.cfg := rfl
@[simp] theorem State.withRo_p (s : State) (x : Snapshot) : (s.withRo x).p = s.p := rfl
@[simp] theorem State.withRo_ro (s : State) (x : Snapshot) : (s.withRo x).ro = x := rfl
@[simp] theorem State.withRo_rw (s : State) (x : Snapshot) : (s.withRo x).rw = s.rw := rfl
@[simp] theorem State.withRo_req (s : State) (x : Snapshot) : (s.withRo x).req = s.req := rfl
@[simp] theorem State.withRo_cq (s : State) (x : Snapshot) : (s.withRo x).cq = s.cq := rfl
@[simp] theorem State.withRo_port (s : State) (x : Snapshot) : (s.withRo x).port = s.port := rfl
@[simp] theorem State.withRo_inbox (s : State) (x : Snapshot) : (s.withRo x).inbox = s.inbox := rfl
@[simp] theorem State.withRo_outbox (s : State) (x : Snapshot) : (s.withRo x).outbox = s.outbox := rfl

@[simp] theorem State.withRw_cfg (s : State) (x : Running) : (s.withRw x).cfg = s.cfg := rfl
@[simp] theorem State.withRw_p (s : State) (x : Running) : (s.withRw x).p = s.p := rfl
@[simp] theorem State.withRw_ro (s : State) (x : Running) : (s.withRw x).ro = s.ro := rfl
@[simp] theorem State.withRw_rw (s : State) (x : Running) : (s.withRw x).rw = x := rfl
@[simp] theorem State.withRw_req (s : State) (x : Running) : (s.withRw x).req = s.req := rfl
@[simp] theorem State.withRw_cq (s : State) (x : Running) : (s.withRw x).cq = s.cq := rfl
@[simp] theorem State.withRw_port (s : State) (x : Running) : (s.withRw x).port = s.port := rfl
@[simp] theorem State.withRw_inbox (s : State) (x : Running) : (s.withRw x).inbox = s.inbox := rfl
@[simp] theorem State.withRw_outbox (s : State) (x : Running) : (s.withRw x).outbox = s.outbox := rfl

@[simp] theorem State.withReq_cfg (s : State) (x : Requests) : (s.withReq x).cfg = s.cfg := rfl
@[simp] theorem State.withReq_p (s : State) (x : Requests) : (s.withReq x).p = s.p := rfl
@[simp] theorem State.withReq_ro (s : State) (x : Requests) : (s.withReq x).ro = s.ro := rfl
@[simp] theorem State.withReq_rw (s : State) (x : Requests) : (s.withReq x).rw = s.rw := rfl
@[simp] theorem State.withReq_req (s : State) (x : Requests) : (s.withReq x).req = x := rfl
@[simp] theorem State.withReq_cq (s : State) (x : Requests) : (s.withReq x).cq = s.cq := rfl
@[simp] theorem State.withReq_port (s : State) (x : Requests) : (s.withReq x).port = s.port := rfl
@[simp] theorem State.withReq_inbox (s : State) (x : Requests) : (s.withReq x).inbox = s.inbox := rfl
@[simp] theorem State.withReq_outbox (s : State) (x : Requests) : (s.withReq x).outbox = s.outbox := rfl

@[simp] theorem State.withCq_cfg (s : State) (x : Queue) : (s.withCq x).cfg = s.cfg := rfl
@[simp] theorem State.withCq_p (s : State) (x : Queue) : (s.withCq x).p = s.p := rfl
@[simp] theorem State.withCq_ro (s : State) (x : Queue) : (s.withCq x).ro = s.ro := rfl
@[simp] theorem State.withCq_rw (s : State) (x : Queue) : (s.withCq x).rw = s.rw := rfl
@[simp] theorem State.withCq_req (s : State) (x : Queue) : (s.withCq x).req = s.req := rfl
@[simp] theorem State.withCq_cq (s : State) (x : Queue) : (s.withCq x).cq = x := rfl
@[simp] theorem State.withCq_port (s : State) (x : Queue) : (s.withCq x).port = s.port := rfl
@[simp] theorem State.withCq_inbox (s : State) (x : Queue) : (s.withCq x).inbox = s.inbox := rfl
@[simp] theorem State.withCq_outbox (s : State) (x : Queue) : (s.withCq x).outbox = s.outbox := rfl

@[simp] theorem State.take_cfg (s : State) (c : Command) (rest : List Command) : (s.take c rest).cfg = s.cfg := rfl
@[simp] theorem State.take_p (s : State) (c : Command) (rest : List Command) : (s.take c rest).p = s.p := rfl
@[simp] theorem State.take_ro (s : State) (c : Command) (rest : List Command) : (s.take c rest).ro = s.ro := rfl
@[simp] theorem State.take_rw (s : State) (c : Command) (rest : List Command) : (s.take c rest).rw = s.rw := rfl
@[simp] theorem State.take_req (s : State) (c : Command) (rest : List Command) : (s.take c rest).req = s.req := rfl
@[simp] theorem State.take_cq (s : State) (c : Command) (rest : List Command) : (s.take c rest).cq = s.cq := rfl
@[simp] theorem State.take_port (s : State) (c : Command) (rest : List Command) : (s.take c rest).port = c.port := rfl
@[simp] theorem State.take_inbox (s : State) (c : Command) (rest : List Command) : (s.take c rest).inbox = rest := rfl
@[simp] theorem State.take_outbox (s : State) (c : Command) (rest : List Command) : (s.take c rest).outbox = s.outbox := rfl

@[simp] theorem State.respond_cfg (s : State) (st : Status) (d : BitVec 32) : (s.respond st d).cfg = s.cfg := rfl
@[simp] theorem State.respond_p (s : State) (st : Status) (d : BitVec 32) : (s.respond st d).p = s.p := rfl
@[simp] theorem State.respond_ro (s : State) (st : Status) (d : BitVec 32) : (s.respond st d).ro = s.ro := rfl
@[simp] theorem State.respond_rw (s : State) (st : Status) (d : BitVec 32) : (s.respond st d).rw = s.rw := rfl
@[simp] theorem State.respond_req (s : State) (st : Status) (d : BitVec 32) : (s.respond st d).req = s.req := rfl
@[simp] theorem State.respond_cq (s : State) (st : Status) (d : BitVec 32) : (s.respond st d).cq = s.cq := rfl
@[simp] theorem State.respond_port (s : State) (st : Status) (d : BitVec 32) : (s.respond st d).port = s.port := rfl
@[simp] theorem State.respond_inbox (s : State) (st : Status) (d : BitVec 32) : (s.respond st d).inbox = s.inbox := rfl
@[simp] theorem State.respond_outbox (s : State) (st : Status) (d : BitVec 32) : (s.respond st d).outbox = s.outbox ++ [⟨s.port, st, d⟩] := rfl

@[simp] theorem State.answer_cfg (s : State) (d : BitVec 32) : (s.answer d).cfg = s.cfg := rfl
@[simp] theorem State.answer_p (s : State) (d : BitVec 32) : (s.answer d).p = s.p := rfl
@[simp] theorem State.answer_ro (s : State) (d : BitVec 32) : (s.answer d).ro = s.ro := rfl
@[simp] theorem State.answer_rw (s : State) (d : BitVec 32) : (s.answer d).rw = s.rw := rfl
@[simp] theorem State.answer_req (s : State) (d : BitVec 32) : (s.answer d).req = s.req := rfl
@[simp] theorem State.answer_cq (s : State) (d : BitVec 32) : (s.answer d).cq = s.cq := rfl
@[simp] theorem State.answer_port (s : State) (d : BitVec 32) : (s.answer d).port = s.port := rfl
@[simp] theorem State.answer_inbox (s : State) (d : BitVec 32) : (s.answer d).inbox = s.inbox := rfl
@[simp] theorem State.answer_outbox (s : State) (d : BitVec 32) : (s.answer d).outbox = s.outbox ++ [⟨s.port, .ok, d⟩] := rfl

@[simp] theorem State.raise_cfg (s : State) (st : Status) : (s.raise st).cfg = s.cfg := rfl
@[simp] theorem State.raise_p (s : State) (st : Status) : (s.raise st).p = s.p := rfl
@[simp] theorem State.raise_ro (s : State) (st : Status) : (s.raise st).ro = s.ro := rfl
@[simp] theorem State.raise_rw (s : State) (st : Status) : (s.raise st).rw = s.rw := rfl
@[simp] theorem State.raise_req (s : State) (st : Status) : (s.raise st).req = s.req := rfl
@[simp] theorem State.raise_cq (s : State) (st : Status) : (s.raise st).cq = s.cq := rfl
@[simp] theorem State.raise_port (s : State) (st : Status) : (s.raise st).port = s.port := rfl
@[simp] theorem State.raise_inbox (s : State) (st : Status) : (s.raise st).inbox = s.inbox := rfl
@[simp] theorem State.raise_outbox (s : State) (st : Status) : (s.raise st).outbox = s.outbox ++ [⟨s.port, st, 0⟩] := rfl

/-! The memory is read and written, and the queue observed, through the fields above only. -/

/-- `count` depends on the queue's indices and the parameters only. -/
theorem State.count_congr (s t : State) (hc : t.cfg = s.cfg) (hr : t.cq.readIdx = s.cq.readIdx)
    (hw : t.cq.writeIdx = s.cq.writeIdx) : t.count = s.count := by
  simp only [State.count, hc, hr, hw]

/-- `qend` depends on the two displacement counters only. -/
theorem State.qend_congr (s t : State) (hl : t.cq.livePos = s.cq.livePos) (hn : t.cq.netDisp = s.cq.netDisp) :
    t.qend = s.qend := by
  simp only [State.qend, hl, hn]

end Sys2Proof.Machine
end

