-- ==== Sys2Proof/Laws/Memory.lean ====
section
/-! SUPPORT. The laws of the `CQ` memory: a read after a write, the canonical form, and the empty memory. -/

namespace Sys2Proof.Machine

open Sys2Proof

@[simp] theorem Memory.read_nil (i : Nat) : Memory.read [] i = none := rfl

/-- A read after a write to the same slot gives the value written. -/
@[simp] theorem Memory.read_write_same (m : Memory) (i : Nat) (v : QueueEntry) :
    (Memory.write m i v).read i = some v := by
  induction m with
  | nil => simp [Memory.write, Memory.read]
  | cons c m ih =>
    obtain ⟨a, e⟩ := c
    unfold Memory.write
    split
    · simp [Memory.read]
    · split
      · simp [Memory.read]
      · simp_all [Memory.read, eq_comm]

/-- A write leaves every other slot as it was. -/
theorem Memory.read_write_other (m : Memory) (i j : Nat) (v : QueueEntry) (h : j ≠ i) :
    (Memory.write m i v).read j = m.read j := by
  induction m with
  | nil => simp [Memory.write, Memory.read, h.symm]
  | cons c m ih =>
    obtain ⟨a, e⟩ := c
    unfold Memory.write
    split
    · simp [Memory.read, h.symm]
    · split
      next hia => subst hia; simp [Memory.read, h.symm]
      · simp [Memory.read, ih]

/-- What a write can do to a read: the slot written reads the value, every other slot reads as before. -/
theorem Memory.read_write (m : Memory) (i j : Nat) (v : QueueEntry) :
    (Memory.write m i v).read j = if j = i then some v else m.read j := by
  split
  next h => subst h; exact Memory.read_write_same m j v
  next h => exact Memory.read_write_other m i j v h

/-- The canonical form of a list with a head: the head's index is below every index behind it. -/
theorem Memory.wf_cons (a : Nat) (e : QueueEntry) (m : Memory) :
    Memory.wf ((a, e) :: m) = true ↔ (∀ c ∈ m, a < c.1) ∧ Memory.wf m = true := by
  induction m generalizing a e with
  | nil => simp [Memory.wf]
  | cons c m ih =>
    obtain ⟨b, e'⟩ := c
    simp only [Memory.wf, Bool.and_eq_true, decide_eq_true_eq, List.mem_cons, forall_eq_or_imp]
    constructor
    · rintro ⟨h, hm⟩
      exact ⟨⟨h, fun c hc => Nat.lt_trans h (((ih b e').1 hm).1 c hc)⟩, hm⟩
    · rintro ⟨⟨h, _⟩, hm⟩
      exact ⟨h, hm⟩

/-- The indices listed after a write are those listed before and the one written. -/
theorem Memory.mem_write (m : Memory) (i : Nat) (v : QueueEntry) (c : Nat × QueueEntry)
    (h : c ∈ Memory.write m i v) : c = (i, v) ∨ c ∈ m := by
  induction m with
  | nil => simpa [Memory.write] using h
  | cons d m ih =>
    obtain ⟨a, e⟩ := d
    unfold Memory.write at h
    split at h
    · simpa using h
    · split at h
      · simp only [List.mem_cons] at h ⊢
        exact h.elim .inl fun h => .inr (.inr h)
      · simp only [List.mem_cons] at h ⊢
        exact h.elim (fun h => .inr (.inl h)) fun h => (ih h).elim .inl fun h => .inr (.inr h)

/-- A write keeps the canonical form. -/
theorem Memory.wf_write (m : Memory) (i : Nat) (v : QueueEntry) (h : Memory.wf m = true) :
    Memory.wf (Memory.write m i v) = true := by
  induction m with
  | nil => rfl
  | cons c m ih =>
    obtain ⟨a, e⟩ := c
    obtain ⟨ha, hm⟩ := (Memory.wf_cons a e m).1 h
    unfold Memory.write
    split
    next hi =>
      refine (Memory.wf_cons _ _ _).2 ⟨fun c hc => ?_, h⟩
      rcases List.mem_cons.1 hc with rfl | hc
      · exact hi
      · exact Nat.lt_trans hi (ha c hc)
    next hi =>
      split
      next hia => subst hia; exact (Memory.wf_cons _ _ _).2 ⟨ha, hm⟩
      next hia =>
        refine (Memory.wf_cons _ _ _).2 ⟨fun c hc => ?_, ih hm⟩
        rcases Memory.mem_write m i v c hc with rfl | hc
        · show a < i
          omega
        · exact ha c hc

/-- The reset memory has the canonical form. -/
theorem Memory.wf_reset : Memory.wf State.reset.cq.slot = true := rfl

/-- A load of a slot that holds a value gives that value; the free value is not read. -/
theorem Memory.load_of_read (m : Memory) (i : Nat) (e : QueueEntry) (h : m.read i = some e) : m.load i = e := by
  simp [Memory.load, h]

/-- A load after a write to another slot is unchanged. -/
theorem Memory.load_write_other (m : Memory) (i j : Nat) (v : QueueEntry) (h : j ≠ i) :
    (Memory.write m i v).load j = m.load j := by
  simp [Memory.load, Memory.read_write_other m i j v h]

end Sys2Proof.Machine
end

