-- ==== Sys2Proof/Laws/Ops.lean ====
section
/-! SUPPORT. What each shared operation can do, said once: the port check, the configuration check, the queue updates and
the step. -/

namespace Sys2Proof.Machine

open Sys2Proof

/-! ## The port check (R232) -/

/-- On a port that may issue the command, the effect. -/
theorem State.onPort_allowed (s : State) (i : Instr) (f : State → State) (h : permits i s.port = true) :
    s.onPort i f = .next (f s) := by
  simp [State.onPort, h]

/-- On any other port, `PortViolation` and no change of state. -/
theorem State.onPort_refused (s : State) (i : Instr) (f : State → State) (h : permits i s.port = false) :
    s.onPort i f = .next (s.raise .portViolation) := by
  simp [State.onPort, h]

/-- Everything `onPort` can do: its one outcome is a next state, the effect's or the refusal's. -/
theorem State.onPort_cases (s : State) (i : Instr) (f : State → State) (t : State) (h : s.onPort i f = .next t) :
    (permits i s.port = true ∧ t = f s) ∨ (permits i s.port = false ∧ t = s.raise .portViolation) := by
  unfold State.onPort at h
  split at h
  next hp => exact .inl ⟨hp, (Host.Outcome.next.inj h).symm⟩
  next hp => exact .inr ⟨by simpa using hp, (Host.Outcome.next.inj h).symm⟩

/-! ## The configuration check (R165) -/

/-- The check passes exactly when an acceleration and a speed limit are staged. -/
theorem Params.check_eq_ok (p : Params) : p.check = .ok ↔ p.accel ≠ 0 ∧ p.speed ≠ 0 := by
  unfold Params.check
  split
  · simp_all
  · split <;> simp_all

/-- Everything `checked` can do. -/
theorem State.checked_cases (s : State) (f : State → State) :
    (s.p.check = .ok ∧ s.checked f = f s) ∨ (s.p.check ≠ .ok ∧ s.checked f = s.raise s.p.check) := by
  unfold State.checked
  split
  next h => exact .inl ⟨h, rfl⟩
  next h => exact .inr ⟨h, rfl⟩

/-! ## The queue updates: each changes `cq` only -/

/-- The frame of a push. -/
theorem State.pushed_frame (s : State) (e : QueueEntry) :
    (s.pushed e).cfg = s.cfg ∧ (s.pushed e).p = s.p ∧ (s.pushed e).ro = s.ro ∧ (s.pushed e).rw = s.rw ∧
    (s.pushed e).req = s.req ∧ (s.pushed e).cq.readIdx = s.cq.readIdx ∧ (s.pushed e).cq.livePos = s.cq.livePos ∧
    (s.pushed e).port = s.port ∧ (s.pushed e).inbox = s.inbox ∧ (s.pushed e).outbox = s.outbox :=
  ⟨rfl, rfl, rfl, rfl, rfl, rfl, rfl, rfl, rfl, rfl⟩

/-- What the memory reads as after a push. -/
theorem State.pushed_read (s : State) (e : QueueEntry) (j : Nat) :
    (s.pushed e).cq.slot.read j = if j = s.cq.writeIdx then some e else s.cq.slot.read j :=
  Memory.read_write _ _ _ _

/-- The frame of a pop: only `cq.read_idx` moves. -/
theorem State.popped_frame (s : State) :
    s.popped.cfg = s.cfg ∧ s.popped.p = s.p ∧ s.popped.ro = s.ro ∧ s.popped.rw = s.rw ∧ s.popped.req = s.req ∧
    s.popped.cq.slot = s.cq.slot ∧ s.popped.cq.writeIdx = s.cq.writeIdx ∧ s.popped.cq.netDisp = s.cq.netDisp ∧
    s.popped.cq.livePos = s.cq.livePos ∧ s.popped.port = s.port ∧ s.popped.inbox = s.inbox ∧
    s.popped.outbox = s.outbox :=
  ⟨rfl, rfl, rfl, rfl, rfl, rfl, rfl, rfl, rfl, rfl, rfl, rfl⟩

/-- The frame of an acknowledgment: only the two counters move. -/
theorem State.acknowledged_frame (s : State) (d : Int) :
    (s.acknowledged d).cfg = s.cfg ∧ (s.acknowledged d).p = s.p ∧ (s.acknowledged d).ro = s.ro ∧
    (s.acknowledged d).rw = s.rw ∧ (s.acknowledged d).req = s.req ∧ (s.acknowledged d).cq.slot = s.cq.slot ∧
    (s.acknowledged d).cq.readIdx = s.cq.readIdx ∧ (s.acknowledged d).cq.writeIdx = s.cq.writeIdx ∧
    (s.acknowledged d).port = s.port ∧ (s.acknowledged d).inbox = s.inbox ∧ (s.acknowledged d).outbox = s.outbox :=
  ⟨rfl, rfl, rfl, rfl, rfl, rfl, rfl, rfl, rfl, rfl, rfl⟩

/-! ## The staging updates -/

/-- What a publish writes (R167): the snapshot, the reload flag of `rw`, the two flags of `p`; nothing else. -/
theorem State.published_frame (s : State) :
    s.published.ro = s.p.snapshot ∧ s.published.p = s.p.clearFlags ∧
    s.published.rw = { s.rw with reload := s.rw.reload || s.p.apply } ∧ s.published.cfg = s.cfg ∧
    s.published.req = s.req ∧ s.published.cq = s.cq ∧ s.published.port = s.port ∧
    s.published.inbox = s.inbox ∧ s.published.outbox = s.outbox := by
  refine ⟨rfl, rfl, ?_, rfl, rfl, rfl, rfl, rfl, rfl⟩
  show (if s.p.apply then s.rw.raiseReload else s.rw) = _
  cases s.p.apply <;> simp [Running.raiseReload]

/-- The frame of `INIT` (R160): the parameters, the slots and the interface stay. -/
theorem State.initialised_frame (s : State) :
    s.initialised.cfg = s.cfg ∧ s.initialised.cq.slot = s.cq.slot ∧ s.initialised.port = s.port ∧
    s.initialised.inbox = s.inbox ∧ s.initialised.outbox = s.outbox :=
  ⟨rfl, rfl, rfl, rfl, rfl⟩

/-- What committing a target writes (R184): the target, the mode, the two flags; nothing else. -/
theorem State.commitTarget_eq (s : State) (x : Position) :
    s.commitTarget x = { s with p := { s.p with target := x, keep := false, dirty := true, apply := true } } := rfl

/-! ## The step -/

/-- With no command presented nothing happens. -/
theorem step_idle (s : State) (h : s.inbox = []) : step s = .next s := by
  unfold step
  rw [h]

/-- Everything `step` can do when a command is presented. -/
theorem step_cases (s : State) (c : Command) (rest : List Command) (h : s.inbox = c :: rest) :
    (∃ i, decode c.word = .ok i ∧ step s = exec i (s.take c rest)) ∨
    (∃ r, decode c.word = .error r ∧ step s = .next ((s.take c rest).raise .illegalCommand)) := by
  unfold step
  rw [h]
  cases hd : decode c.word with
  | ok i => exact .inl ⟨i, rfl, by simp [hd]⟩
  | error r => exact .inr ⟨r, rfl, by simp [hd]⟩

end Sys2Proof.Machine
end

