-- ==== Sys2Proof/Laws/Exec.lean ====
section
/-! SUPPORT. Every command is answered with a next state: no arm of `exec`, and so no step, faults or refuses (R76). -/

namespace Sys2Proof.Machine

open Sys2Proof

/-- `onPort` always answers a next state. -/
theorem State.onPort_next (s : State) (i : Instr) (f : State → State) : ∃ t, s.onPort i f = .next t := by
  unfold State.onPort
  split <;> exact ⟨_, rfl⟩

/-- Every command is its own effect behind its own port check. -/
theorem exec_eq_onPort (i : Instr) : ∃ f : State → State, ∀ s, exec i s = s.onPort i f := by
  cases i <;> exact ⟨_, fun _ => rfl⟩

/-- Every command in every state is answered with a next state. -/
theorem exec_next (i : Instr) (s : State) : ∃ t, exec i s = .next t := by
  obtain ⟨f, hf⟩ := exec_eq_onPort i
  rw [hf]
  exact s.onPort_next i f

/-- On a port that may not issue the command, `PortViolation` and no change of state, whatever the command (R232). -/
theorem exec_refused (i : Instr) (s : State) (h : permits i s.port = false) :
    exec i s = .next (s.raise .portViolation) := by
  obtain ⟨f, hf⟩ := exec_eq_onPort i
  rw [hf, s.onPort_refused i f h]

/-- Every step answers a next state. -/
theorem step_next (s : State) : ∃ t, step s = .next t := by
  cases h : s.inbox with
  | nil => exact ⟨s, step_idle s h⟩
  | cons c rest =>
    rcases step_cases s c rest h with ⟨i, _, hs⟩ | ⟨r, _, hs⟩
    · rw [hs]
      exact exec_next i _
    · exact ⟨_, hs⟩

end Sys2Proof.Machine
end

