-- ==== Sys2Proof/Laws/Log.lean ====
section
/-! SUPPORT. The LAU functions as bit-vector arithmetic and as integers: one spec lemma each. -/

namespace Sys2Proof.Machine

open Sys2Proof

/-- `wrap16` keeps the value modulo 2^16, read as `s16`. -/
theorem wrap16_toInt (z : Int) : (wrap16 z).toInt = z.bmod (2 ^ 16) := by
  simp [wrap16, BitVec.toInt_ofInt]

/-- `wrap32` keeps the value modulo 2^32, read as `s32`. -/
theorem wrap32_toInt (z : Int) : (wrap32 z).toInt = z.bmod (2 ^ 32) := by
  simp [wrap32, BitVec.toInt_ofInt]

/-- `wrap32` of a sum of two registers is their sum as bit patterns. -/
theorem wrap32_add (a b : Position) : wrap32 (a.toInt + b.toInt) = a + b := by
  simp [wrap32, BitVec.ofInt_add]

/-- `wrap32` of a difference of two registers is their difference as bit patterns. -/
theorem wrap32_sub (a b : Position) : wrap32 (a.toInt - b.toInt) = a - b := by
  simp [wrap32, Int.sub_eq_add_neg, BitVec.ofInt_add, BitVec.ofInt_neg, BitVec.sub_eq_add_neg]

/-- `multiply` is the sum of the codes modulo 2^16 (R120). -/
theorem multiply_eq_add (a b : LogValue) : multiply a b = a + b := by
  simp [multiply, wrap16, sext, BitVec.ofInt_add]

/-- `divide` is the difference of the codes modulo 2^16 (R121). -/
theorem divide_eq_sub (a b : LogValue) : divide a b = a - b := by
  simp [divide, wrap16, sext, Int.sub_eq_add_neg, BitVec.ofInt_add, BitVec.ofInt_neg, BitVec.sub_eq_add_neg]

/-- `reciprocal` is the negated code modulo 2^16 (R122). -/
theorem reciprocal_eq_neg (a : LogValue) : reciprocal a = -a := by
  simp [reciprocal, wrap16, sext, BitVec.ofInt_neg]

/-- `from(0)` is the sentinel (R101(a)). -/
theorem logFrom_zero (c : Config) : logFrom c 0 = Config.logInvalid := rfl

/-- The saturated branch of `to_uN` (R104). -/
theorem logTo_high (c : Config) (n : Nat) (v : LogValue) (h : 512 * (n : Int) ≤ v.toInt) :
    logTo c n v = 2 ^ n - 1 := by
  simp [logTo, sext, h]

end Sys2Proof.Machine
end

