-- ==== Sys2Proof/Laws/PerInstr.lean ====
section
/-! SUPPORT. The family `RowMatch`, one lemma per constructor: the word the encoder writes for a command matches a row of
the opcode table (R82: `cmd AND mask = match`). The table's masks and patterns are data of their own, so this holds the
encoder against them. -/

namespace Sys2Proof.Laws

open Sys2Proof

/-- The encoded command matches some row of the opcode table. -/
def RowMatch.Statement (i : Instr) : Prop := ∃ r ∈ opcodeTable, r.matchesWord (encode i)

/-! ## The operands leave the reserved bits of their format zero (R82 `rz`) -/

theorem encodeB8_reserved (x : BitVec 8) : encodeB8 x &&& 0xFFFFFF00#32 = 0#32 := by
  show (0#24 ++ x) &&& (0xFFFFFF#24 ++ 0#8) = 0#24 ++ 0#8
  rw [BitVec.and_append]
  simp

theorem encodeH16_reserved (x : BitVec 16) : encodeH16 x &&& 0xFFFF0000#32 = 0#32 := by
  show (0#16 ++ x) &&& (0xFFFF#16 ++ 0#16) = 0#16 ++ 0#16
  rw [BitVec.and_append]
  simp

theorem encodeLN_reserved (a : LogValue) (n : BitVec 8) : encodeLN a n &&& 0xFF000000#32 = 0#32 := by
  show (0#8 ++ n ++ a) &&& (0xFF#8 ++ 0#8 ++ 0#16) = 0#8 ++ 0#8 ++ 0#16
  rw [BitVec.and_append, BitVec.and_append]
  simp

theorem encodeQ_reserved (t : BitVec 20) (b : BitVec 8) (d p : Bool) : encodeQ t b d p &&& 0xC0000000#32 = 0#32 := by
  show (0#2 ++ BitVec.ofBool p ++ BitVec.ofBool d ++ b ++ t) &&& (3#2 ++ 0#1 ++ 0#1 ++ 0#8 ++ 0#20) =
    0#2 ++ 0#1 ++ 0#1 ++ 0#8 ++ 0#20
  rw [BitVec.and_append, BitVec.and_append, BitVec.and_append, BitVec.and_append]
  simp

theorem encodeQA_reserved (b : BitVec 8) (d : Bool) : encodeQA b d &&& 0xE00FFFFF#32 = 0#32 := by
  show (0#3 ++ BitVec.ofBool d ++ b ++ 0#20) &&& (7#3 ++ 0#1 ++ 0#8 ++ 0xFFFFF#20) = 0#3 ++ 0#1 ++ 0#8 ++ 0#20
  rw [BitVec.and_append, BitVec.and_append, BitVec.and_append]
  simp

theorem encodeD1_reserved (d : Bool) : encodeD1 d &&& 0xFFFFFFFE#32 = 0#32 := by
  show (0#31 ++ BitVec.ofBool d) &&& (0x7FFFFFFF#31 ++ 0#1) = 0#31 ++ 0#1
  rw [BitVec.and_append]
  simp

theorem encodeKD_reserved (f d : Bool) : encodeKD f d &&& 0xFFFFFFFC#32 = 0#32 := by
  show (0#30 ++ BitVec.ofBool d ++ BitVec.ofBool f) &&& (0x3FFFFFFF#30 ++ 0#1 ++ 0#1) = 0#30 ++ 0#1 ++ 0#1
  rw [BitVec.and_append, BitVec.and_append]
  simp

/-- A word matches the row of its opcode when its operand field is zero in the row's reserved bits. -/
theorem rowMatch_of_row (i : Instr) (op : BitVec 8) (a m : Arg) (r : OpcodeRow) (hr : r ∈ opcodeTable)
    (hm : r.mask = 0xFF#8 ++ m) (hp : r.pattern = op ++ 0#32) (ho : i.opcode = op) (hi : i.arg = a)
    (ha : a &&& m = 0#32) : RowMatch.Statement i := by
  subst ho hi
  refine ⟨r, hr, ?_⟩
  show (i.opcode ++ i.arg) &&& r.mask = r.pattern
  rw [hm, hp, BitVec.and_append, ha, show (0xFF#8 : BitVec 8) = BitVec.allOnes 8 from rfl, BitVec.and_allOnes]

/-! ## One lemma per constructor -/

theorem RowMatch.lfrom8 (x : BitVec 8) : RowMatch.Statement (.lfrom8 x) :=
  rowMatch_of_row _ 0x01#8 (encodeB8 x) 0xFFFFFF00#32 ⟨"LFROM8", 0xFFFFFFFF00, 0x0100000000⟩
    (by decide) rfl rfl rfl rfl (encodeB8_reserved x)
theorem RowMatch.lfrom16 (x : BitVec 16) : RowMatch.Statement (.lfrom16 x) :=
  rowMatch_of_row _ 0x02#8 (encodeH16 x) 0xFFFF0000#32 ⟨"LFROM16", 0xFFFFFF0000, 0x0200000000⟩
    (by decide) rfl rfl rfl rfl (encodeH16_reserved x)
theorem RowMatch.lfrom32 (x : BitVec 32) : RowMatch.Statement (.lfrom32 x) :=
  rowMatch_of_row _ 0x03#8 x 0x00000000#32 ⟨"LFROM32", 0xFF00000000, 0x0300000000⟩
    (by decide) rfl rfl rfl rfl BitVec.and_zero
theorem RowMatch.lto16 (x : BitVec 16) : RowMatch.Statement (.lto16 x) :=
  rowMatch_of_row _ 0x04#8 (encodeH16 x) 0xFFFF0000#32 ⟨"LTO16", 0xFFFFFF0000, 0x0400000000⟩
    (by decide) rfl rfl rfl rfl (encodeH16_reserved x)
theorem RowMatch.lto32 (x : BitVec 16) : RowMatch.Statement (.lto32 x) :=
  rowMatch_of_row _ 0x05#8 (encodeH16 x) 0xFFFF0000#32 ⟨"LTO32", 0xFFFFFF0000, 0x0500000000⟩
    (by decide) rfl rfl rfl rfl (encodeH16_reserved x)
theorem RowMatch.lmul (a b : LogValue) : RowMatch.Statement (.lmul a b) :=
  rowMatch_of_row _ 0x10#8 (encodeLL a b) 0x00000000#32 ⟨"LMUL", 0xFF00000000, 0x1000000000⟩
    (by decide) rfl rfl rfl rfl BitVec.and_zero
theorem RowMatch.ldiv (a b : LogValue) : RowMatch.Statement (.ldiv a b) :=
  rowMatch_of_row _ 0x11#8 (encodeLL a b) 0x00000000#32 ⟨"LDIV", 0xFF00000000, 0x1100000000⟩
    (by decide) rfl rfl rfl rfl BitVec.and_zero
theorem RowMatch.lrcp (x : BitVec 16) : RowMatch.Statement (.lrcp x) :=
  rowMatch_of_row _ 0x12#8 (encodeH16 x) 0xFFFF0000#32 ⟨"LRCP", 0xFFFFFF0000, 0x1200000000⟩
    (by decide) rfl rfl rfl rfl (encodeH16_reserved x)
theorem RowMatch.lsqr (x : BitVec 16) : RowMatch.Statement (.lsqr x) :=
  rowMatch_of_row _ 0x13#8 (encodeH16 x) 0xFFFF0000#32 ⟨"LSQR", 0xFFFFFF0000, 0x1300000000⟩
    (by decide) rfl rfl rfl rfl (encodeH16_reserved x)
theorem RowMatch.lrsqr (x : BitVec 16) : RowMatch.Statement (.lrsqr x) :=
  rowMatch_of_row _ 0x14#8 (encodeH16 x) 0xFFFF0000#32 ⟨"LRSQR", 0xFFFFFF0000, 0x1400000000⟩
    (by decide) rfl rfl rfl rfl (encodeH16_reserved x)
theorem RowMatch.lrsqrt (x : BitVec 16) : RowMatch.Statement (.lrsqrt x) :=
  rowMatch_of_row _ 0x15#8 (encodeH16 x) 0xFFFF0000#32 ⟨"LRSQRT", 0xFFFFFF0000, 0x1500000000⟩
    (by decide) rfl rfl rfl rfl (encodeH16_reserved x)
theorem RowMatch.lshl (a : LogValue) (n : BitVec 8) : RowMatch.Statement (.lshl a n) :=
  rowMatch_of_row _ 0x16#8 (encodeLN a n) 0xFF000000#32 ⟨"LSHL", 0xFFFF000000, 0x1600000000⟩
    (by decide) rfl rfl rfl rfl (encodeLN_reserved a n)
theorem RowMatch.lshr (a : LogValue) (n : BitVec 8) : RowMatch.Statement (.lshr a n) :=
  rowMatch_of_row _ 0x17#8 (encodeLN a n) 0xFF000000#32 ⟨"LSHR", 0xFFFF000000, 0x1700000000⟩
    (by decide) rfl rfl rfl rfl (encodeLN_reserved a n)
theorem RowMatch.qpush (t : BitVec 20) (b : BitVec 8) (d p : Bool) : RowMatch.Statement (.qpush t b d p) :=
  rowMatch_of_row _ 0x20#8 (encodeQ t b d p) 0xC0000000#32 ⟨"QPUSH", 0xFFC0000000, 0x2000000000⟩
    (by decide) rfl rfl rfl rfl (encodeQ_reserved t b d p)
theorem RowMatch.qpop : RowMatch.Statement .qpop :=
  rowMatch_of_row _ 0x21#8 0#32 0xFFFFFFFF#32 ⟨"QPOP", 0xFFFFFFFFFF, 0x2100000000⟩
    (by decide) rfl rfl rfl rfl BitVec.zero_and
theorem RowMatch.qempty : RowMatch.Statement .qempty :=
  rowMatch_of_row _ 0x22#8 0#32 0xFFFFFFFF#32 ⟨"QEMPTY", 0xFFFFFFFFFF, 0x2200000000⟩
    (by decide) rfl rfl rfl rfl BitVec.zero_and
theorem RowMatch.qfull : RowMatch.Statement .qfull :=
  rowMatch_of_row _ 0x23#8 0#32 0xFFFFFFFF#32 ⟨"QFULL", 0xFFFFFFFFFF, 0x2300000000⟩
    (by decide) rfl rfl rfl rfl BitVec.zero_and
theorem RowMatch.qack (b : BitVec 8) (d : Bool) : RowMatch.Statement (.qack b d) :=
  rowMatch_of_row _ 0x24#8 (encodeQA b d) 0xE00FFFFF#32 ⟨"QACK", 0xFFE00FFFFF, 0x2400000000⟩
    (by decide) rfl rfl rfl rfl (encodeQA_reserved b d)
theorem RowMatch.qend : RowMatch.Statement .qend :=
  rowMatch_of_row _ 0x25#8 0#32 0xFFFFFFFF#32 ⟨"QEND", 0xFFFFFFFFFF, 0x2500000000⟩
    (by decide) rfl rfl rfl rfl BitVec.zero_and
theorem RowMatch.init : RowMatch.Statement .init :=
  rowMatch_of_row _ 0x30#8 0#32 0xFFFFFFFF#32 ⟨"INIT", 0xFFFFFFFFFF, 0x3000000000⟩
    (by decide) rfl rfl rfl rfl BitVec.zero_and
theorem RowMatch.pacc (x : BitVec 32) : RowMatch.Statement (.pacc x) :=
  rowMatch_of_row _ 0x31#8 x 0x00000000#32 ⟨"PACC", 0xFF00000000, 0x3100000000⟩
    (by decide) rfl rfl rfl rfl BitVec.and_zero
theorem RowMatch.pspd (x : BitVec 32) : RowMatch.Statement (.pspd x) :=
  rowMatch_of_row _ 0x32#8 x 0x00000000#32 ⟨"PSPD", 0xFF00000000, 0x3200000000⟩
    (by decide) rfl rfl rfl rfl BitVec.and_zero
theorem RowMatch.ptgt (x : BitVec 32) : RowMatch.Statement (.ptgt x) :=
  rowMatch_of_row _ 0x33#8 x 0x00000000#32 ⟨"PTGT", 0xFF00000000, 0x3300000000⟩
    (by decide) rfl rfl rfl rfl BitVec.and_zero
theorem RowMatch.pkeep (f d : Bool) : RowMatch.Statement (.pkeep f d) :=
  rowMatch_of_row _ 0x34#8 (encodeKD f d) 0xFFFFFFFC#32 ⟨"PKEEP", 0xFFFFFFFFFC, 0x3400000000⟩
    (by decide) rfl rfl rfl rfl (encodeKD_reserved f d)
theorem RowMatch.pchk : RowMatch.Statement .pchk :=
  rowMatch_of_row _ 0x35#8 0#32 0xFFFFFFFF#32 ⟨"PCHK", 0xFFFFFFFFFF, 0x3500000000⟩
    (by decide) rfl rfl rfl rfl BitVec.zero_and
theorem RowMatch.pub : RowMatch.Statement .pub :=
  rowMatch_of_row _ 0x36#8 0#32 0xFFFFFFFF#32 ⟨"PUB", 0xFFFFFFFFFF, 0x3600000000⟩
    (by decide) rfl rfl rfl rfl BitVec.zero_and
theorem RowMatch.rrun (d : Bool) : RowMatch.Statement (.rrun d) :=
  rowMatch_of_row _ 0x40#8 (encodeD1 d) 0xFFFFFFFE#32 ⟨"RRUN", 0xFFFFFFFFFE, 0x4000000000⟩
    (by decide) rfl rfl rfl rfl (encodeD1_reserved d)
theorem RowMatch.rmovt (x : BitVec 32) : RowMatch.Statement (.rmovt x) :=
  rowMatch_of_row _ 0x41#8 x 0x00000000#32 ⟨"RMOVT", 0xFF00000000, 0x4100000000⟩
    (by decide) rfl rfl rfl rfl BitVec.and_zero
theorem RowMatch.rmove (x : BitVec 32) : RowMatch.Statement (.rmove x) :=
  rowMatch_of_row _ 0x42#8 x 0x00000000#32 ⟨"RMOVE", 0xFF00000000, 0x4200000000⟩
    (by decide) rfl rfl rfl rfl BitVec.and_zero
theorem RowMatch.radv (x : BitVec 32) : RowMatch.Statement (.radv x) :=
  rowMatch_of_row _ 0x43#8 x 0x00000000#32 ⟨"RADV", 0xFF00000000, 0x4300000000⟩
    (by decide) rfl rfl rfl rfl BitVec.and_zero
theorem RowMatch.rstop : RowMatch.Statement .rstop :=
  rowMatch_of_row _ 0x44#8 0#32 0xFFFFFFFF#32 ⟨"RSTOP", 0xFFFFFFFFFF, 0x4400000000⟩
    (by decide) rfl rfl rfl rfl BitVec.zero_and
theorem RowMatch.ristop : RowMatch.Statement .ristop :=
  rowMatch_of_row _ 0x45#8 0#32 0xFFFFFFFF#32 ⟨"RISTOP", 0xFFFFFFFFFF, 0x4500000000⟩
    (by decide) rfl rfl rfl rfl BitVec.zero_and
theorem RowMatch.rgacc : RowMatch.Statement .rgacc :=
  rowMatch_of_row _ 0x46#8 0#32 0xFFFFFFFF#32 ⟨"RGACC", 0xFFFFFFFFFF, 0x4600000000⟩
    (by decide) rfl rfl rfl rfl BitVec.zero_and
theorem RowMatch.rcomp : RowMatch.Statement .rcomp :=
  rowMatch_of_row _ 0x47#8 0#32 0xFFFFFFFF#32 ⟨"RCOMP", 0xFFFFFFFFFF, 0x4700000000⟩
    (by decide) rfl rfl rfl rfl BitVec.zero_and

end Sys2Proof.Laws
end

