-- ==== Sys2Proof/Laws/Queue.lean ====
section
/-! SUPPORT. The index arithmetic of the queue (R140): the count as a difference without a modulus, its bound, and the two
counters as bit patterns. -/

namespace Sys2Proof.Machine

open Sys2Proof

/-- The count when the write index has not wrapped past the read index. -/
theorem State.count_of_le (s : State) (h : s.cq.readIdx ≤ s.cq.writeIdx) (hw : s.cq.writeIdx ≤ s.cfg.queueLen) :
    s.count = s.cq.writeIdx - s.cq.readIdx := by
  have hm : ((s.cq.writeIdx : Int) - (s.cq.readIdx : Int)) % (s.cfg.cqSlots : Int) =
      (s.cq.writeIdx : Int) - s.cq.readIdx := by
    apply Int.emod_eq_of_lt
    · omega
    · unfold Config.cqSlots
      omega
  unfold State.count
  rw [hm]
  omega

/-- The count when the write index has wrapped. -/
theorem State.count_of_lt (s : State) (h : s.cq.writeIdx < s.cq.readIdx) (hr : s.cq.readIdx ≤ s.cfg.queueLen) :
    s.count = s.cq.writeIdx + s.cfg.cqSlots - s.cq.readIdx := by
  have hm : ((s.cq.writeIdx : Int) - (s.cq.readIdx : Int)) % (s.cfg.cqSlots : Int) =
      (s.cq.writeIdx : Int) - s.cq.readIdx + s.cfg.cqSlots := by
    rw [← Int.add_emod_right]
    apply Int.emod_eq_of_lt <;> unfold Config.cqSlots <;> omega
  unfold State.count
  rw [hm]
  unfold Config.cqSlots
  omega

/-- The count never exceeds `QUEUE_LEN`, whatever the indices (R40). -/
theorem State.count_le (s : State) : s.count ≤ s.cfg.queueLen := by
  have h := Int.emod_lt_of_pos ((s.cq.writeIdx : Int) - s.cq.readIdx)
    (show (0 : Int) < s.cfg.cqSlots by unfold Config.cqSlots; omega)
  unfold State.count Config.cqSlots at *
  omega

/-- The end of the queue is the sum of the two counters as bit patterns (R140). -/
theorem State.qend_eq (s : State) : s.qend = s.cq.livePos + s.cq.netDisp := wrap32_add _ _

/-- The slot of an entry in flight lies in the ring. -/
theorem State.slotIndex_lt (s : State) (j : Nat) : (s.cq.readIdx + j) % s.cfg.cqSlots ≤ s.cfg.queueLen := by
  have h := Nat.mod_lt (s.cq.readIdx + j) (show 0 < s.cfg.cqSlots by unfold Config.cqSlots; omega)
  unfold Config.cqSlots at *
  omega

/-- The displacement of an entry of at most 127 steps lies in `-127..127`. -/
theorem signedSteps_bounds (b : BitVec 8) (d : Bool) (h : b.toNat ≤ 127) :
    -127 ≤ signedSteps b d ∧ signedSteps b d ≤ 127 := by
  unfold signedSteps zext
  split <;> omega

end Sys2Proof.Machine
end

