-- ==== Sys2Proof/Laws/Run.lean ====
section
/-! SUPPORT. Runs: every run of the machine ends in a next state, and what one step of a run of `RCOMP`s is. -/

namespace Sys2Proof.Machine

open Sys2Proof

/-- A run of one step more is one step and the rest of the run. -/
theorem run_succ (n : Nat) (s t : State) (h : step s = .next t) :
    Sys2Proof.core.run (n + 1) s = Sys2Proof.core.run n t := by
  have hc : Sys2Proof.core.step s = .next t := h
  simp only [Host.Core.run, hc]

/-- Every run ends in a next state. -/
theorem run_next (n : Nat) (s : State) : ∃ t, Sys2Proof.core.run n s = .next t := by
  induction n generalizing s with
  | zero => exact ⟨s, rfl⟩
  | succ n ih =>
    obtain ⟨t, ht⟩ := step_next s
    obtain ⟨u, hu⟩ := ih t
    exact ⟨u, by rw [run_succ n s t ht, hu]⟩

/-- Whatever the number of `RCOMP`s, they take every state to some state. -/
theorem rcompRun_exists (n : Nat) (s : State) : ∃ t, RcompRun n s t := run_next n _

/-- The word of `RCOMP` decodes to it (R193). -/
theorem decode_rcompCommand : decode rcompCommand.word = .ok .rcomp := rfl

/-- What a step does when an `RCOMP` is presented on the RT port. -/
theorem step_rcompCommand (s : State) (rest : List Command) (h : s.inbox = rcompCommand :: rest) :
    step s = .next ((s.take rcompCommand rest).rcomp.1.answer (entryWord true (s.take rcompCommand rest).rcomp.2)) := by
  have hs : step s = exec .rcomp (s.take rcompCommand rest) := by
    unfold step
    rw [h]
    simp only [decode_rcompCommand]
  rw [hs]
  exact State.onPort_allowed (s.take rcompCommand rest) .rcomp
    (fun s => s.rcomp.1.answer (fmtE (some s.rcomp.2))) rfl

/-- No command at all takes a state to itself with nothing presented. -/
theorem rcompRun_zero (s t : State) : RcompRun 0 s t ↔ t = { s with inbox := [] } := by
  show Host.Outcome.next { s with inbox := [] } = .next t ↔ _
  constructor
  · intro h
    exact (Host.Outcome.next.inj h).symm
  · intro h
    rw [h]

/-- A run of `n + 1` `RCOMP`s is one `RCOMP` and a run of `n` from where it leads. -/
theorem rcompRun_succ (n : Nat) (s t : State) :
    RcompRun (n + 1) s t ↔
      Sys2Proof.core.run n
        (((s.take rcompCommand (List.replicate n rcompCommand)).rcomp.1).answer
          (entryWord true (s.take rcompCommand (List.replicate n rcompCommand)).rcomp.2)) = .next t := by
  unfold RcompRun
  rw [run_succ n _ _ (step_rcompCommand { s with inbox := List.replicate (n + 1) rcompCommand } _ rfl)]
  rfl

end Sys2Proof.Machine
end

