-- ==== Sys2Proof/Laws/Sequencer.lean ====
section
/-! SUPPORT. What `RCOMP` can do, said once for each helper (R193 to R203): which records it leaves alone, and the shape
of the entry. -/

namespace Sys2Proof.Machine

open Sys2Proof

/-- Two states agree on everything but `rw` and `req`: the records `RCOMP` may write (R193). -/
structure SameButRamp (s t : State) : Prop where
  cfg : t.cfg = s.cfg
  p : t.p = s.p
  ro : t.ro = s.ro
  cq : t.cq = s.cq
  port : t.port = s.port
  inbox : t.inbox = s.inbox
  outbox : t.outbox = s.outbox

theorem SameButRamp.refl (s : State) : SameButRamp s s := ⟨rfl, rfl, rfl, rfl, rfl, rfl, rfl⟩

theorem SameButRamp.trans {s t u : State} (h : SameButRamp s t) (k : SameButRamp t u) : SameButRamp s u :=
  ⟨k.cfg.trans h.cfg, k.p.trans h.p, k.ro.trans h.ro, k.cq.trans h.cq, k.port.trans h.port,
    k.inbox.trans h.inbox, k.outbox.trans h.outbox⟩

theorem State.withRw_same (s : State) (r : Running) : SameButRamp s (s.withRw r) :=
  ⟨rfl, rfl, rfl, rfl, rfl, rfl, rfl⟩

theorem State.immediateStop_same (s : State) : SameButRamp s s.immediateStop.1 :=
  ⟨rfl, rfl, rfl, rfl, rfl, rfl, rfl⟩

theorem State.reconcile_same (s : State) : SameButRamp s s.reconcile := ⟨rfl, rfl, rfl, rfl, rfl, rfl, rfl⟩

theorem State.reload_same (s : State) : SameButRamp s s.reload := by
  unfold State.reload
  dsimp only
  split <;> exact s.withRw_same _

theorem State.gracefulStop_same (s : State) : SameButRamp s s.gracefulStop := ⟨rfl, rfl, rfl, rfl, rfl, rfl, rfl⟩

theorem State.goIdle_same (s : State) : SameButRamp s s.goIdle.1 := ⟨rfl, rfl, rfl, rfl, rfl, rfl, rfl⟩

theorem State.takeStep_same (s : State) (d : Decision) : SameButRamp s (s.takeStep d).1 :=
  ⟨rfl, rfl, rfl, rfl, rfl, rfl, rfl⟩

/-- The pending events touch `rw` and `req` only. -/
theorem State.servePending_same (s : State) : SameButRamp s s.servePending := by
  unfold State.servePending
  dsimp only
  have h1 : SameButRamp s (if s.rw.incomplete then s.reconcile else s) := by
    split
    · exact s.reconcile_same
    · exact .refl s
  refine h1.trans ?_
  generalize (if s.rw.incomplete then s.reconcile else s) = a
  have h2 : SameButRamp a (if a.rw.reload then a.reload else a) := by
    split
    · exact a.reload_same
    · exact .refl a
  refine h2.trans ?_
  generalize (if a.rw.reload then a.reload else a) = b
  split
  · exact b.gracefulStop_same
  · exact .refl b

/-- Everything `advance` can do: rest, or one step as decided (R193, R198). -/
theorem State.advance_cases (s : State) :
    ((s.rw.accel = 0 ∨ s.rw.speed = 0) ∧ s.advance = s.goIdle) ∨
    (s.rw.accel ≠ 0 ∧ s.rw.speed ≠ 0 ∧ s.rw.directionAndDistance.2 = .steps 0 ∧ s.rw.rampSteps.toNat ≤ 1 ∧
      s.advance = s.goIdle) ∨
    (s.rw.accel ≠ 0 ∧ s.rw.speed ≠ 0 ∧ ¬(s.rw.directionAndDistance.2 = .steps 0 ∧ s.rw.rampSteps.toNat ≤ 1) ∧
      s.advance = s.takeStep (s.decidePhase s.rw.directionAndDistance.1 s.rw.directionAndDistance.2)) := by
  unfold State.advance
  split
  next h => exact .inl ⟨h, rfl⟩
  next h =>
    obtain ⟨ha, hs⟩ := not_or.1 h
    by_cases hd : s.rw.directionAndDistance.2 = .steps 0 ∧ s.rw.rampSteps.toNat ≤ 1
    · exact .inr (.inl ⟨ha, hs, hd.1, hd.2, if_pos hd⟩)
    · exact .inr (.inr ⟨ha, hs, hd, if_neg hd⟩)

theorem State.advance_same (s : State) : SameButRamp s s.advance.1 := by
  rcases s.advance_cases with ⟨_, h⟩ | ⟨_, _, _, _, h⟩ | ⟨_, _, _, h⟩ <;> rw [h]
  · exact s.goIdle_same
  · exact s.goIdle_same
  · exact s.takeStep_same _

/-- The frame of the sequencer: `RCOMP` never writes `p`, `ro` or `cq` (R168(f), R193). -/
theorem State.rcomp_same (s : State) : SameButRamp s s.rcomp.1 := by
  unfold State.rcomp
  split
  · exact s.immediateStop_same
  · exact s.servePending_same.trans s.servePending.advance_same

/-! ## The entry -/

/-- An entry is null (R192): zero duration, zero steps, no pause. -/
def QueueEntry.isNull (e : QueueEntry) : Prop := e.ticks = 0 ∧ e.steps = 0 ∧ e.pause = false

theorem State.nullEntry_isNull (s : State) : QueueEntry.isNull s.nullEntry := ⟨rfl, rfl, rfl⟩

/-- Every decision answers an entry of one step in the direction it decided (R200). -/
theorem State.takeStep_entry (s : State) (d : Decision) :
    (s.takeStep d).2.steps = 1 ∧ (s.takeStep d).2.dir = d.dir ∧ (s.takeStep d).2.pause = false := ⟨rfl, rfl, rfl⟩

/-- The tick interval of a step entry lies in `1..65535` (R191). -/
theorem stepTicks_range (c : Config) (v : LogValue) : 1 ≤ (stepTicks c v).toNat ∧ (stepTicks c v).toNat ≤ 65535 := by
  unfold stepTicks
  rw [BitVec.toNat_ofNat]
  simp only [Config.minTicks, Config.maxTicks]
  omega

/-! ## The decision -/

/-- Everything `decide_phase` can answer (R199), with the condition of each answer. -/
theorem State.decidePhase_cases (s : State) (want : Bool) (dist : Distance) :
    (s.rw.rampSteps.toNat = 0 ∧ s.decidePhase want dist = ⟨.accelerating, 1, 1, want⟩) ∨
    (s.rw.rampSteps.toNat ≠ 0 ∧
      (s.rw.dir ≠ want ∨ dist.within s.rw.rampSteps.toNat = true ∨ s.overLimit = true) ∧
      s.decidePhase want dist =
        ⟨.decelerating, s.rw.rampSteps.toNat, s.rw.rampSteps.toNat - 1, s.rw.dir⟩) ∨
    (s.rw.rampSteps.toNat ≠ 0 ∧ s.rw.dir = want ∧ dist.within s.rw.rampSteps.toNat = false ∧ s.overLimit = false ∧
      dist.roomToAccelerate s.rw.rampSteps.toNat = true ∧ s.rw.rampSteps.toNat < 2 ^ 32 - 1 ∧
      s.decidePhase want dist =
        ⟨.accelerating, s.rw.rampSteps.toNat + 1, s.rw.rampSteps.toNat + 1, s.rw.dir⟩) ∨
    (s.rw.rampSteps.toNat ≠ 0 ∧ s.rw.dir = want ∧ dist.within s.rw.rampSteps.toNat = false ∧ s.overLimit = false ∧
      s.decidePhase want dist = ⟨.coasting, s.rw.rampSteps.toNat, s.rw.rampSteps.toNat, s.rw.dir⟩) := by
  unfold State.decidePhase
  dsimp only [zext]
  split
  next h => exact .inl ⟨h, rfl⟩
  next h =>
    split
    next hd => exact .inr (.inl ⟨h, hd, rfl⟩)
    next hd =>
      rw [not_or, not_or] at hd
      obtain ⟨h1, h2, h3⟩ := hd
      have hw : s.rw.dir = want := Decidable.not_not.1 h1
      have hn : dist.within s.rw.rampSteps.toNat = false := by simpa using h2
      have ho : s.overLimit = false := by simpa using h3
      split
      next ha => exact .inr (.inr (.inl ⟨h, hw, hn, ho, ha.1, ha.2.2, rfl⟩))
      next ha => exact .inr (.inr (.inr ⟨h, hw, hn, ho, rfl⟩))

end Sys2Proof.Machine
end

