-- ==== Sys2Proof/Tests/Slice0.lean ====
section
/-! SUPPORT. The model's own tests: decoding of words written out from `30_encoding.md`, the well-formedness checks, single
commands with the results `95_test_vectors.md` gives, and for each obligation with hypotheses a state that meets them. -/

set_option Elab.async false

namespace Sys2Proof.Tests

open Sys2Proof Sys2Proof.Machine

/-! ## Small states -/

/-- The reset state, about to execute a command on port `q`. -/
def unit (q : Port) : State := { State.reset with port := q }

/-- With `PACC 1000` and `PSPD 100` staged, as in section 6. -/
def ready (q : Port) : State := { unit q with p := { Params.reset with accel := 1000, speed := 100, dirty := true } }

/-- With the move of program P3 latched (`target = 16`) and nothing computed yet. -/
def latched (q : Port) : State :=
  { ready q with rw := { Running.reset with target := 16, accel := 1000, speed := 100 } }

/-- Three steps into that move. -/
def moving (q : Port) : State :=
  { ready q with rw := { Running.reset with
      phase := .accelerating, dir := true, vel := 3213, pos := 3, rampSteps := 3, target := 16
      accel := 1000, speed := 100 } }

/-- With one entry in slot 4 and the write index wrapped, as near the end of section 4. -/
def oneEntry (q : Port) : State :=
  { unit q with cq := { Queue.reset with slot := [(4, ⟨65535, 127, true, true⟩)], readIdx := 4, netDisp := 127 } }

/-- A full queue by its indices: `QUEUE_LEN = 4` entries from slot 0. -/
def full (q : Port) : State := { unit q with cq := { Queue.reset with writeIdx := 4 } }

/-- The last response of an outcome. -/
def reply : Result → Option Response
  | .next s => s.outbox.getLast?
  | .fault _ => none
  | .refused _ => none

/-- A property of the next state of an outcome. -/
def after (r : Result) (p : State → Bool) : Bool :=
  match r with
  | .next s => p s
  | .fault _ => false
  | .refused _ => false

/-! ## Decoding: one word of each command, from the encodings of R82 and R84 -/

theorem test_decode_lfrom8 : decode 0x0100000003 = .ok (.lfrom8 3) := by decide
theorem test_decode_lfrom16 : decode 0x02000003E8 = .ok (.lfrom16 1000) := by decide
theorem test_decode_lfrom32 : decode 0x03FFFFFFFF = .ok (.lfrom32 4294967295) := by decide
theorem test_decode_lto16 : decode 0x040000032C = .ok (.lto16 812) := by decide
theorem test_decode_lto32 : decode 0x050000FE00 = .ok (.lto32 (-512)) := by decide
theorem test_decode_lmul : decode 0x100200032C = .ok (.lmul 812 512) := by decide
theorem test_decode_ldiv : decode 0x110200052C = .ok (.ldiv 1324 512) := by decide
theorem test_decode_lrcp : decode 0x1200000200 = .ok (.lrcp 512) := by decide
theorem test_decode_lsqr : decode 0x130000032C = .ok (.lsqr 812) := by decide
theorem test_decode_lrsqr : decode 0x140000032C = .ok (.lrsqr 812) := by decide
theorem test_decode_lrsqrt : decode 0x1500000400 = .ok (.lrsqrt 1024) := by decide
theorem test_decode_lshl : decode 0x160003032C = .ok (.lshl 812 3) := by decide
theorem test_decode_lshr : decode 0x170001032C = .ok (.lshr 812 1) := by decide
theorem test_decode_qpush : decode 0x20201FFFFF = .ok (.qpush 1048575 1 false true) := by decide
theorem test_decode_qpush_stored : decode 0x2017F0FFFF = .ok (.qpush 65535 127 true false) := by decide
theorem test_decode_qpop : decode 0x2100000000 = .ok .qpop := by decide
theorem test_decode_qempty : decode 0x2200000000 = .ok .qempty := by decide
theorem test_decode_qfull : decode 0x2300000000 = .ok .qfull := by decide
theorem test_decode_qack : decode 0x2417F00000 = .ok (.qack 127 true) := by decide
theorem test_decode_qend : decode 0x2500000000 = .ok .qend := by decide
theorem test_decode_init : decode 0x3000000000 = .ok .init := by decide
theorem test_decode_pacc : decode 0x31FFFFFFFB = .ok (.pacc (-5)) := by decide
theorem test_decode_pspd : decode 0x3200000064 = .ok (.pspd 100) := by decide
theorem test_decode_ptgt : decode 0x33FFFFFFF9 = .ok (.ptgt (-7)) := by decide
theorem test_decode_pkeep : decode 0x3400000001 = .ok (.pkeep true false) := by decide
theorem test_decode_pchk : decode 0x3500000000 = .ok .pchk := by decide
theorem test_decode_pub : decode 0x3600000000 = .ok .pub := by decide
theorem test_decode_rrun : decode 0x4000000001 = .ok (.rrun true) := by decide
theorem test_decode_rmovt : decode 0x4100000010 = .ok (.rmovt 16) := by decide
theorem test_decode_rmove : decode 0x42FFFFFFF9 = .ok (.rmove (-7)) := by decide
theorem test_decode_radv : decode 0x4300000004 = .ok (.radv 4) := by decide
theorem test_decode_rstop : decode 0x4400000000 = .ok .rstop := by decide
theorem test_decode_ristop : decode 0x4500000000 = .ok .ristop := by decide
theorem test_decode_rgacc : decode 0x4600000000 = .ok .rgacc := by decide
theorem test_decode_rcomp : decode 0x4700000000 = .ok .rcomp := by decide

/-- R86: the lowest and highest opcodes around the assigned ones are illegal. -/
theorem test_decode_unassigned :
    [0x0000000000, 0x0600000000, 0x0F00000000, 0x1800000000, 0x2600000000, 0x3700000000, 0x4800000000,
      0xFF00000000].all (fun w => (decode w).toOption.isNone) = true := by decide

/-- R82, R86: one reserved bit of each format that has any. -/
theorem test_decode_reserved :
    [0x4700000001, 0x0100000100, 0x0200010000, 0x1601000000, 0x2040000000, 0x2400000001, 0x2420000000,
      0x4000000002, 0x3400000004].all (fun w => (decode w).toOption.isNone) = true := by decide

/-- R64: five bytes, the least significant first; and not five. -/
theorem test_decode_bytes : decodeBytes [0x2C, 0x03, 0x00, 0x02, 0x10] = .ok (.lmul 812 512) ∧
    decodeBytes [0x2C, 0x03, 0x00, 0x02] = .error (.notFiveBytes 4) := by decide

theorem test_decode_table_word : decodeTableWord 40 0x100200032C = some (.lmul 812 512) := by decide
theorem test_encode : encode (.qpush 65535 127 true true) = 0x2037F0FFFF ∧ encode (.pkeep true false) = 0x3400000001 := by
  decide

/-! ## Well-formedness: an ill-formed term for each check -/

/-- Tables of zeros, which meet T1 to T3 without being the reference tables. -/
def plain : Config := ⟨1, 1, .replicate 256 0, .replicate 256 0⟩

theorem test_wf_queueLen : ({ plain with queueLen := 0 } : Config).queueLenOk = false := by decide
theorem test_wf_tickHz : ({ plain with tickHz := 0 } : Config).tickHzOk = false := by decide
theorem test_wf_t1 : ({ plain with fwdTab := .replicate 256 1 } : Config).tableT1 = false := by decide +kernel
theorem test_wf_t2 : ({ plain with fwdTab := plain.fwdTab.set 7 2 } : Config).tableT2 = false := by decide +kernel
theorem test_wf_t3 : ({ plain with invTab := plain.invTab.set 1 255 } : Config).tableT3 = false := by decide +kernel
theorem test_wf_instr : (Instr.pacc 0).wf = true := rfl

theorem plain_fwdRead (f : BitVec 8) : plain.fwdRead f = 0 := by simp [plain, Config.fwdRead, Vector.get_eq_getElem]
theorem plain_invRead (i : BitVec 8) : plain.invRead i = 0 := by simp [plain, Config.invRead, Vector.get_eq_getElem]

/-- The admissible tables are not the reference ones only. -/
theorem test_wf_plain : plain.wf = true := by
  simp only [Config.wf, Config.queueLenOk, Config.tickHzOk, Config.tableT1, Config.tableT2, Config.tableT3,
    Config.fwdCode, Config.invMantissa, plain_fwdRead, plain_invRead]
  decide +kernel

/-! ## The tables (R102, R106): entries read off the printed rows -/

theorem test_fwd_tab : Config.reference.fwdRead 109 = 45 ∧ Config.reference.fwdRead 128 = 44 ∧
    Config.reference.fwdRead 232 = 13 ∧ Config.reference.fwdRead 255 = 1 := by decide +kernel
theorem test_inv_tab : Config.reference.invRead 127 = 88 ∧ Config.reference.invRead 128 = 88 ∧
    Config.reference.invRead 240 = 23 ∧ Config.reference.invRead 255 = 2 := by decide +kernel

/-! ## The LAU (sections 2 and 3) -/

theorem test_lfrom8 : reply (exec (.lfrom8 3) (unit .emit)) = some ⟨.emit, .ok, 812⟩ := by decide +kernel
theorem test_lfrom8_zero : reply (exec (.lfrom8 0) (unit .app)) = some ⟨.app, .ok, 0x8000⟩ := by decide +kernel
theorem test_lfrom16_drops_a_bit : reply (exec (.lfrom16 513) (unit .app)) = some ⟨.app, .ok, 4608⟩ := by decide +kernel
theorem test_lfrom32 : reply (exec (.lfrom32 1000000) (unit .rt)) = some ⟨.rt, .ok, 10205⟩ := by decide +kernel
theorem test_lfrom32_max : reply (exec (.lfrom32 4294967295) (unit .app)) = some ⟨.app, .ok, 16383⟩ := by decide +kernel
theorem test_lto16_below_saturation : reply (exec (.lto16 8191) (unit .app)) = some ⟨.app, .ok, 65408⟩ := by decide +kernel
theorem test_lto16_underflow : reply (exec (.lto16 (-513)) (unit .app)) = some ⟨.app, .ok, 0⟩ := by decide +kernel
theorem test_lto32_half : reply (exec (.lto32 (-512)) (unit .app)) = some ⟨.app, .ok, 1⟩ := by decide +kernel
theorem test_lto32_saturates : reply (exec (.lto32 16384) (unit .app)) = some ⟨.app, .ok, 0xFFFFFFFF⟩ := by
  decide +kernel
theorem test_lmul_wraps : reply (exec (.lmul 30000 10000) (unit .app)) = some ⟨.app, .ok, 0x9C40⟩ := by decide +kernel
theorem test_ldiv_order : reply (exec (.ldiv 1324 512) (unit .app)) = some ⟨.app, .ok, 812⟩ := by decide +kernel
theorem test_lrcp_sentinel : reply (exec (.lrcp (-32768)) (unit .app)) = some ⟨.app, .ok, 0x8000⟩ := by decide +kernel
theorem test_lsqr_saturates : reply (exec (.lsqr 16384) (unit .app)) = some ⟨.app, .ok, 32767⟩ := by decide +kernel
theorem test_lsqr_saturates_low : reply (exec (.lsqr (-16385)) (unit .app)) = some ⟨.app, .ok, 0x8000⟩ := by
  decide +kernel
theorem test_lrsqr : reply (exec (.lrsqr (-16384)) (unit .app)) = some ⟨.app, .ok, 0x8000⟩ := by decide +kernel
theorem test_lrsqrt_truncates : reply (exec (.lrsqrt (-3)) (unit .app)) = some ⟨.app, .ok, 1⟩ := by decide +kernel
theorem test_lrsqrt_odd : reply (exec (.lrsqrt 32767) (unit .app)) = some ⟨.app, .ok, 0xC001⟩ := by decide +kernel
theorem test_lshl_255 : reply (exec (.lshl 5 255) (unit .app)) = some ⟨.app, .ok, 0xFE05⟩ := by decide +kernel
theorem test_lshr_wraps : reply (exec (.lshr (-32700) 1) (unit .app)) = some ⟨.app, .ok, 32324⟩ := by decide +kernel

/-! ## The queue (sections 1 S5, S6 and 4) -/

theorem test_qpush : after (exec (.qpush 2000 2 false false) (oneEntry .rt)) (fun t =>
    t.cq.writeIdx = 1 ∧ t.cq.netDisp = 125 ∧
      t.cq.slot = [(0, ⟨2000, 2, false, false⟩), (4, ⟨65535, 127, true, true⟩)]) = true := by decide +kernel
theorem test_qpush_refusals_in_order :
    (reply (exec (.qpush 65536 128 true false) (full .rt))).map (·.status) = some .queueFull ∧
    (reply (exec (.qpush 65536 128 true false) (unit .rt))).map (·.status) = some .ticksOutOfRange ∧
    (reply (exec (.qpush 65535 128 true false) (unit .rt))).map (·.status) = some .stepsOutOfRange := by decide +kernel
theorem test_qpop : reply (exec .qpop (oneEntry .emit)) = some ⟨.emit, .ok, 0xB7F0FFFF⟩ := by decide +kernel
theorem test_qpop_wraps : after (exec .qpop (oneEntry .emit)) (fun t => t.cq.readIdx = 0) = true := by decide +kernel
theorem test_qempty : reply (exec .qempty (unit .app)) = some ⟨.app, .ok, 1⟩ := by decide +kernel
theorem test_qfull : reply (exec .qfull (full .emit)) = some ⟨.emit, .ok, 1⟩ := by decide +kernel
theorem test_qack : after (exec (.qack 2 false) (oneEntry .emit)) (fun t =>
    t.cq.livePos = -2 ∧ t.cq.netDisp = 129) = true := by decide +kernel
theorem test_qack_flags_bit : reply (exec (.qack 128 true) (unit .emit)) = some ⟨.emit, .stepsOutOfRange, 0⟩ := by
  decide +kernel
theorem test_qend_wraps :
    reply (exec .qend { unit .app with cq := { Queue.reset with livePos := 2147483647, netDisp := 1 } }) =
      some ⟨.app, .ok, 0x80000000⟩ := by decide +kernel

/-! ## The staged parameters (section 5) -/

theorem test_init : after (exec .init (moving .app)) (fun t =>
    t.rw = Running.reset ∧ t.p = Params.reset) = true := by decide +kernel
theorem test_pacc_negative : reply (exec (.pacc 0x80000000) (unit .app)) = some ⟨.app, .invalidAcceleration, 0⟩ := by
  decide +kernel
theorem test_pacc : after (exec (.pacc 2147483647) (unit .app)) (fun t =>
    t.p = { Params.reset with accel := 2147483647, dirty := true }) = true := by decide +kernel
theorem test_pspd_zero : after (exec (.pspd 0) (ready .app)) (fun t =>
    t.p = { Params.reset with accel := 1000, dirty := true }) = true := by decide +kernel
theorem test_ptgt : after (exec (.ptgt (-7)) (unit .app)) (fun t =>
    t.p = { Params.reset with target := -7, dirty := true }) = true := by decide +kernel
theorem test_pkeep : after (exec (.pkeep true false) (unit .app)) (fun t =>
    t.p = { Params.reset with keep := true, dirty := true }) = true := by decide +kernel
theorem test_pchk : reply (exec .pchk (unit .app)) = some ⟨.app, .missingAcceleration, 0⟩ := by decide +kernel
theorem test_pchk_ok : reply (exec .pchk (ready .app)) = some ⟨.app, .ok, 0⟩ := by decide +kernel
theorem test_pub : after (exec .pub (ready .rt)) (fun t =>
    t.ro = ⟨0, 1000, 100, false, false⟩ ∧ t.rw = Running.reset ∧ t.p.dirty = false) = true := by decide +kernel
theorem test_pub_clean : reply (exec .pub (unit .rt)) = some ⟨.rt, .ok, 0⟩ := by decide +kernel

/-! ## The sequencer's commands (section 6) -/

theorem test_rrun : after (exec (.rrun true) (ready .app)) (fun t =>
    t.p = { Params.reset with accel := 1000, speed := 100, keep := true, keepDir := true, dirty := true, apply := true })
    = true := by decide +kernel
theorem test_rmovt_no_op : reply (exec (.rmovt 0) (ready .app)) = some ⟨.app, .ok, 0⟩ := by decide +kernel
theorem test_rmovt : after (exec (.rmovt 16) (ready .app)) (fun t => t.p.target = 16 ∧ t.p.apply = true) = true := by
  decide +kernel
theorem test_rmove_wraps :
    after (exec (.rmove (-1)) { ready .app with p := { (ready .app).p with target := 0x80000000, apply := true } })
      (fun t => t.p.target = 2147483647) = true := by decide +kernel
theorem test_radv : after (exec (.radv 4) (moving .app)) (fun t => t.p.target = 4 ∧ t.p.apply = true) = true := by
  decide +kernel
theorem test_radv_at_rest : reply (exec (.radv 4) (ready .app)) = some ⟨.app, .ok, 0⟩ := by decide +kernel
theorem test_rstop : after (exec .rstop (unit .rt)) (fun t => t.req = ⟨true, false⟩) = true := by decide +kernel
theorem test_ristop : after (exec .ristop (unit .app)) (fun t => t.req = ⟨false, true⟩) = true := by decide +kernel
theorem test_rgacc : reply (exec .rgacc { moving .app with rw := { (moving .app).rw with phase := .decelerating } }) =
    some ⟨.app, .ok, 0xFFFFFC18⟩ := by decide +kernel

/-- R193: after reset, the null entry. -/
theorem test_rcomp_reset : reply (exec .rcomp (unit .rt)) = some ⟨.rt, .ok, 0x80000000⟩ := by decide +kernel

/-- The first step of program P3: `{22368, 1, 1, 0}`. -/
theorem test_rcomp_first_step : reply (exec .rcomp (latched .rt)) = some ⟨.rt, .ok, 0x90105760⟩ := by decide +kernel

/-- A fetched word runs as the very next step, whatever was presented before. -/
theorem test_fetch_runs : reply (step (State.reset.withFetchWord 40 0x4700000000)) = some ⟨.rt, .ok, 0x80000000⟩ := by
  decide +kernel

/-! ## Witnesses: for each obligation with hypotheses, states and operands that meet them -/

/-- The state `s` with the word `w` presented on port `q`, and one more command behind it. -/
def presented (s : State) (q : Port) (w : Word) : State := { s with inbox := [⟨q, w⟩, rcompCommand] }

theorem witness_EveryLegalWordIsTheEncodingOfItsCommand : decode 0x20201FFFFF = .ok (.qpush 1048575 1 false true) := by
  decide

theorem witness_IllegalWordsAreRefusedOnEveryPort :
    (0x4700000001 : Word) &&& 0xFFFFFFFFFF ≠ 0x4700000000 ∧
    (∀ r ∈ opcodeTable, (0x4700000001 : Word) &&& r.mask ≠ r.pattern) ∧
    (∃ r ∈ opcodeTable, (0x4000000001 : Word) &&& r.mask = r.pattern) ∧
    (presented (unit .app) .emit 0x4700000001).inbox = [⟨.emit, 0x4700000001⟩, rcompCommand] := by decide +kernel

theorem witness_StepRunsTheDecodedCommand :
    (presented (unit .app) .rt 0x4700000000).inbox = [⟨.rt, 0x4700000000⟩, rcompCommand] ∧
    decode 0x4700000000 = .ok .rcomp ∧ (unit .app).inbox = [] := ⟨rfl, by decide, rfl⟩

theorem witness_EveryCommandIsAnsweredOnce :
    (presented (unit .app) .app 0x4700000000).inbox = [⟨.app, 0x4700000000⟩, rcompCommand] ∧
    expectedStatus ⟨.app, 0x4700000000⟩ (unit .app) = .portViolation := by decide +kernel

/-- Both indices at the ends of their range, and one word for each of the nine statuses. -/
theorem witness_StatusesFollowTheTable :
    (presented (full .rt) .rt 0x2018010000).inbox = [⟨.rt, 0x2018010000⟩, rcompCommand] ∧
    (full .rt).cq.readIdx ≤ (full .rt).cfg.queueLen ∧ (full .rt).cq.writeIdx ≤ (full .rt).cfg.queueLen ∧
    [expectedStatus ⟨.app, 0x30⟩ (unit .app), expectedStatus ⟨.app, 0x3100000000⟩ (unit .app),
      expectedStatus ⟨.app, 0x3500000000⟩ (unit .app),
      expectedStatus ⟨.app, 0x3500000000⟩ { unit .app with p := { Params.reset with accel := 1 } },
      expectedStatus ⟨.rt, 0x2018010000⟩ (full .rt), expectedStatus ⟨.rt, 0x2018010000⟩ (unit .rt),
      expectedStatus ⟨.emit, 0x2418000000⟩ (unit .rt), expectedStatus ⟨.emit, 0x3000000000⟩ (unit .rt),
      expectedStatus ⟨.app, 0x3000000000⟩ (unit .rt)] =
    [.illegalCommand, .invalidAcceleration, .missingAcceleration, .missingSpeedLimit, .queueFull, .ticksOutOfRange,
      .stepsOutOfRange, .portViolation, .ok] := by decide +kernel

theorem witness_PortPermissionTable :
    (unit .emit).port ∉ portsOfOpcode (Instr.opcode .init).toNat ∧
    (unit .app).port ∈ portsOfOpcode (Instr.opcode .init).toNat := by decide

theorem witness_EachPortWritesOnlyWhatItOwns_emit : (oneEntry .emit).port = .emit ∧
    after (exec .qpop (oneEntry .emit)) (fun t => t.cq.readIdx ≠ (oneEntry .emit).cq.readIdx) = true := by decide +kernel
theorem witness_EachPortWritesOnlyWhatItOwns_rt : (latched .rt).port = .rt ∧
    after (exec .rcomp (latched .rt)) (fun t => t.rw ≠ (latched .rt).rw) = true := by decide +kernel
theorem witness_EachPortWritesOnlyWhatItOwns_app : (unit .app).port = .app ∧ Instr.pspd 1 ≠ .init ∧
    after (exec (.pspd 1) (unit .app)) (fun t => t.p ≠ (unit .app).p) = true := by decide +kernel

/-- Each register of `EachRegisterHasItsWriters` changes in some command. -/
theorem witness_EachRegisterHasItsWriters :
    after (exec .pub (ready .rt)) (fun t => t.ro ≠ (ready .rt).ro) = true ∧
    after (exec .rcomp (latched .rt)) (fun t => t.rw ≠ (latched .rt).rw) = true ∧
    after (exec .rstop (unit .rt)) (fun t => t.req ≠ (unit .rt).req) = true ∧
    after (exec (.qpush 1 1 true false) (unit .rt)) (fun t => t.cq.slot ≠ (unit .rt).cq.slot ∧
      t.cq.writeIdx ≠ (unit .rt).cq.writeIdx ∧ t.cq.netDisp ≠ (unit .rt).cq.netDisp) = true ∧
    after (exec .qpop (oneEntry .emit)) (fun t => t.cq.readIdx ≠ (oneEntry .emit).cq.readIdx) = true ∧
    after (exec (.qack 1 true) (unit .emit)) (fun t => t.cq.livePos ≠ (unit .emit).cq.livePos) = true ∧
    after (exec (.pacc 1) (unit .app)) (fun t => t.p.accel ≠ (unit .app).p.accel) = true ∧
    after (exec (.pspd 1) (unit .app)) (fun t => t.p.speed ≠ (unit .app).p.speed) = true ∧
    after (exec (.rmovt 16) (ready .app)) (fun t => t.p.target ≠ (ready .app).p.target ∧
      t.p.apply ≠ (ready .app).p.apply) = true ∧
    after (exec (.rrun true) (ready .app)) (fun t => t.p.keep ≠ (ready .app).p.keep ∧
      t.p.keepDir ≠ (ready .app).p.keepDir) = true ∧
    after (exec .pub (ready .rt)) (fun t => t.p.dirty ≠ (ready .rt).p.dirty) = true := by decide +kernel

theorem witness_SequencerReadsNeitherStagingNorQueue : ∃ t, exec .rcomp (latched .rt) = .next t := exec_next _ _

/-- R101's clauses at the ends of their ranges: 0, 1, `2^31`, `2^32 - 1`, a pair in `1..511`, a pair sharing a code. -/
theorem witness_ForwardTransformProperties : plain.wf = true ∧ (31 ≤ 31) ∧ (1 : U32) ≠ 0 ∧ (4294967295 : U32) ≠ 0 ∧
    (0 : U32).toNat < (1 : U32).toNat ∧ 1 ≤ (510 : U32).toNat ∧ (510 : U32).toNat < (511 : U32).toNat ∧
    (511 : U32).toNat ≤ 511 ∧ Nat.log2 (512 : U32).toNat = Nat.log2 (513 : U32).toNat ∧
    (512 : U32).toNat * 256 / 2 ^ Nat.log2 (512 : U32).toNat % 256 =
      (513 : U32).toNat * 256 / 2 ^ Nat.log2 (513 : U32).toNat % 256 :=
  ⟨test_wf_plain, by decide +kernel⟩

/-- R105's clauses at the ends of their ranges. -/
theorem witness_InverseTransformProperties : plain.wf = true ∧ (-513 : LogValue).toInt < -512 ∧
    -512 ≤ (-512 : LogValue).toInt ∧ (0 : LogValue).toInt ≤ 0 ∧ 15 < 16 ∧ 31 < 32 ∧ 8192 ≤ (8192 : LogValue).toInt ∧
    (8191 : LogValue).toInt < 8192 ∧ 16384 ≤ (16384 : LogValue).toInt ∧ (16383 : LogValue).toInt < 16384 ∧
    (0x8000 : LogValue).toInt ≤ (0x7FFF : LogValue).toInt :=
  ⟨test_wf_plain, by decide +kernel⟩

theorem witness_RoundTripErrorOfTheReferenceTables : (1 ≤ 1 ∧ 260 ≤ 260) ∧ 15 < 16 ∧ 31 < 32 ∧ (1 : BitVec 16) ≠ 0 ∧
    (65535 : BitVec 16) ≠ 0 ∧ (4294967295 : U32) ≠ 0 := by decide

theorem witness_SentinelThroughEveryOperation : (0 : LogValue) ≠ Config.logInvalid ∧
    (0x8001 : LogValue) ≠ Config.logInvalid := by decide

/-- Every branch of `QPUSH`: the wrong port, full, ticks 65536, steps 128, and 65535 with 127. -/
theorem witness_QpushStoresTheEntryOrRefuses : (unit .app).port ≠ .rt ∧ (unit .rt).port = .rt ∧
    ((full .rt).cq.writeIdx + 1) % ((full .rt).cfg.queueLen + 1) = (full .rt).cq.readIdx ∧
    ((unit .rt).cq.writeIdx + 1) % ((unit .rt).cfg.queueLen + 1) ≠ (unit .rt).cq.readIdx ∧
    65535 < (65536 : BitVec 20).toNat ∧ ¬ 65535 < (65535 : BitVec 20).toNat ∧ 127 < (128 : BitVec 8).toNat ∧
    ¬ 127 < (127 : BitVec 8).toNat := by decide +kernel

theorem witness_QpopAnswersTheOldestEntry : (unit .rt).port ≠ .emit ∧ (unit .emit).port = .emit ∧
    (unit .emit).cq.readIdx = (unit .emit).cq.writeIdx ∧ (oneEntry .emit).cq.readIdx ≠ (oneEntry .emit).cq.writeIdx ∧
    (oneEntry .emit).cq.slot.read (oneEntry .emit).cq.readIdx = some ⟨65535, 127, true, true⟩ := by decide +kernel

theorem witness_QueueObserversAnswerWhatTheyCompute : (oneEntry .app).cq.readIdx ≤ (oneEntry .app).cfg.queueLen ∧
    (full .app).cq.writeIdx ≤ (full .app).cfg.queueLen ∧ (unit .emit).port = .emit ∧ (unit .app).port ≠ .emit := by
  decide +kernel

theorem witness_QackMovesStepsToTheLivePosition : (unit .app).port ≠ .emit ∧ (unit .emit).port = .emit ∧
    127 < (128 : BitVec 8).toNat ∧ (127 : BitVec 8).toNat ≤ 127 := by decide

/-- A push answered `OK`; a push refused on a full queue and an acknowledgment, which leave the queue's end. -/
theorem witness_QueueEndMovesWithPushesOnly :
    after (exec (.qpush 1 1 true false) (unit .rt)) (fun t =>
      t.outbox = (unit .rt).outbox ++ [⟨.rt, .ok, 0⟩] ∧ t.qend = 1) = true ∧
    Instr.qpush 1 1 true false ≠ .init ∧
    after (exec (.qpush 1 1 true false) (full .rt)) (fun t =>
      t.outbox ≠ (full .rt).outbox ++ [⟨.rt, .ok, 0⟩] ∧ t.qend = (full .rt).qend) = true ∧
    Instr.qack 1 true ≠ .init ∧
    after (exec (.qack 1 true) (oneEntry .emit)) (fun t => t.qend = (oneEntry .emit).qend) = true := by decide +kernel

/-- The queue invariant with one entry in flight, in the last slot, both indices at the ends of their range. -/
theorem oneEntry_queueInv (q : Port) : QueueInv (oneEntry q) where
  read_le := by cases q <;> decide +kernel
  write_le := by cases q <;> decide +kernel
  canonical := rfl
  stored i e h := by
    have h' : (if 4 = i then some (⟨65535, 127, true, true⟩ : QueueEntry) else none) = some e := h
    split at h'
    next hi =>
      obtain rfl := Option.some.inj h'
      subst hi
      exact ⟨by cases q <;> decide +kernel, by decide⟩
    next => cases h'
  flight j h := by
    have hc : (oneEntry q).count = 1 := by cases q <;> decide +kernel
    obtain rfl : j = 0 := by omega
    cases q <;> decide +kernel

theorem witness_EveryStepKeepsTheQueueInvariant :
    QueueInv { oneEntry .app with inbox := [⟨.emit, 0x2100000000⟩] } ∧
    ∃ t, step { oneEntry .app with inbox := [⟨.emit, 0x2100000000⟩] } = .next t :=
  ⟨⟨(oneEntry_queueInv .app).1, (oneEntry_queueInv .app).2, (oneEntry_queueInv .app).3, (oneEntry_queueInv .app).4,
    (oneEntry_queueInv .app).5⟩, step_next _⟩

/-- The clauses of the refinement: a push with room and both fields at their greatest, a pop of one entry, `INIT`, and a
command that is none of the three. -/
theorem witness_TheRingRefinesAFirstInFirstOutList : QueueInv (oneEntry .rt) ∧ (oneEntry .rt).port = .rt ∧
    (oneEntry .rt).inFlight.length < (oneEntry .rt).cfg.queueLen ∧ (65535 : BitVec 20).toNat ≤ 65535 ∧
    (127 : BitVec 8).toNat ≤ 127 ∧ QueueInv (oneEntry .emit) ∧ (oneEntry .emit).port = .emit ∧
    (∃ rest, (oneEntry .emit).inFlight = ⟨65535, 127, true, true⟩ :: rest) ∧
    QueueInv (oneEntry .app) ∧ (oneEntry .app).port = .app ∧ ∃ t, exec .rstop (oneEntry .app) = .next t :=
  ⟨oneEntry_queueInv .rt, rfl, by decide +kernel, by decide, by decide, oneEntry_queueInv .emit, rfl,
    ⟨[], by decide +kernel⟩, oneEntry_queueInv .app, rfl, exec_next _ _⟩

theorem witness_InitRestoresTheResetState : (unit .rt).port ≠ .app ∧ (moving .app).port = .app := by decide

theorem witness_PaccStagesAPositiveAcceleration : (unit .rt).port ≠ .app ∧ (unit .app).port = .app ∧
    (0 : BitVec 32).toInt ≤ 0 ∧ (0x80000000 : BitVec 32).toInt ≤ 0 ∧ 0 < (1 : BitVec 32).toInt ∧
    0 < (0x7FFFFFFF : BitVec 32).toInt := by decide

theorem witness_RawSettersStageTheirFields : (unit .emit).port ≠ .app ∧ (unit .app).port = .app := by decide
theorem witness_PchkReportsWhatIsMissing : (unit .rt).port ≠ .app ∧ (ready .app).port = .app := by decide
theorem witness_PubPublishesTheStagedRecord : (unit .app).port ≠ .rt ∧ (unit .rt).port = .rt ∧
    (unit .rt).p.dirty = false ∧ (ready .rt).p.dirty = true := by decide

/-- A staged request: `dirty` and `apply` set, the greatest acceleration staged and published. -/
def staged : State :=
  { unit .app with p := { Params.reset with accel := 0x7FFFFFFF, speed := 1, dirty := true, apply := true }
                   ro := { Snapshot.reset with accel := 0x7FFFFFFF } }

theorem staged_inv : StagedInv { staged with inbox := [⟨.rt, 0x3600000000⟩] } :=
  ⟨by decide +kernel, by decide +kernel, by decide +kernel⟩

theorem witness_EveryStepKeepsTheStagingInvariant : StagedInv { staged with inbox := [⟨.rt, 0x3600000000⟩] } ∧
    ∃ t, step { staged with inbox := [⟨.rt, 0x3600000000⟩] } = .next t := ⟨staged_inv, step_next _⟩

theorem witness_RrunStagesAKeepRunningRequest : (ready .rt).port ≠ .app ∧ (unit .app).port = .app ∧
    (unit .app).missing ≠ .ok ∧ (ready .app).port = .app ∧ (ready .app).p.accel ≠ 0 ∧ (ready .app).p.speed ≠ 0 := by
  decide +kernel
theorem witness_RmovtCommitsANewTarget : (ready .app).p.accel ≠ 0 ∧ (ready .app).p.speed ≠ 0 ∧
    (ready .app).impliedEnd = some 0 ∧ (ready .app).impliedEnd ≠ some 16 ∧ staged.impliedEnd = some 0 ∧
    (unit .app).missing ≠ .ok := by decide +kernel
theorem witness_RmoveCommitsARelativeTarget : (ready .app).p.accel ≠ 0 ∧ (ready .app).p.speed ≠ 0 ∧
    (ready .app).impliedEnd ≠ none ∧ (-7 : Position) ≠ 0 ∧
    State.impliedEnd { ready .app with req := ⟨true, false⟩ } = none := by decide +kernel
theorem witness_RadvExtendsARunningMove : (ready .app).rw.phase = .idle ∧ (moving .app).port = .app ∧
    (moving .app).rw.phase ≠ .idle ∧ (moving .app).rw.keep = false ∧ (moving .app).p.keep = false := by decide
theorem witness_StopRequestsSetTheirFlag : (unit .emit).port = .emit ∧ (unit .app).port ≠ .emit ∧
    (unit .rt).port ≠ .emit := by decide
theorem witness_RgaccAnswersTheSignedAcceleration : (moving .emit).port = .emit ∧ (moving .rt).port ≠ .emit := by decide

theorem witness_VelocityCodeOfARampStep : plain.wf = true ∧ (1 : U32) ≠ 0 ∧ (0x7FFFFFFF : U32) ≠ 0 ∧
    (0x7FFFFFFF : U32).toNat ≤ 2 ^ 31 - 1 ∧ (1 ≤ 1 ∧ 1 ≤ 2 ^ 32 - 1) ∧ (1 ≤ 2 ^ 32 - 1 ∧ 2 ^ 32 - 1 ≤ 2 ^ 32 - 1) :=
  ⟨test_wf_plain, by decide⟩

theorem witness_RcompAlwaysAnswersAnEntry : (unit .app).port ≠ .rt ∧ (moving .rt).port = .rt := by decide
theorem witness_ImmediateStopNullsTheNextEntry :
    State.port { moving .rt with req := ⟨true, true⟩ } = .rt ∧
    (State.req { moving .rt with req := ⟨true, true⟩ }).istop = true := by decide
/-- A moving ramp with an incomplete stop, a reload, a graceful stop pending. -/
def interrupted : State := { moving .rt with rw := { (moving .rt).rw with incomplete := true, reload := true } }
def reloading : State :=
  { moving .rt with rw := { (moving .rt).rw with reload := true }
                    ro := { Snapshot.reset with accel := 250, speed := 100, target := 16 }
                    req := ⟨true, false⟩ }
def stopping : State := { moving .rt with req := ⟨true, false⟩ }

theorem witness_PendingEventsAreServedInOrder :
    (interrupted.port = .rt ∧ interrupted.req.istop = false ∧ interrupted.rw.incomplete = true) ∧
    (reloading.port = .rt ∧ reloading.req.istop = false ∧ reloading.rw.incomplete = false ∧
      reloading.rw.reload = true ∧ reloading.rw.rampSteps ≠ 0 ∧ reloading.rw.accel ≠ reloading.ro.accel ∧
      reloading.ro.accel ≠ 0) ∧
    (stopping.port = .rt ∧ stopping.req.istop = false ∧ stopping.rw.incomplete = false ∧ stopping.rw.reload = false ∧
      stopping.req.gstop = true) := by decide +kernel

theorem latched_nothingPending (q : Port) : (latched q).nothingPending := ⟨rfl, rfl, rfl, rfl⟩
theorem moving_nothingPending (q : Port) : (moving q).nothingPending := ⟨rfl, rfl, rfl, rfl⟩
theorem latched_hasTarget (q : Port) : (latched q).hasTarget :=
  ⟨rfl, by cases q <;> decide +kernel, by cases q <;> decide +kernel⟩

/-- No speed in effect; and on the target with one ramp step left. -/
def speedless : State := { latched .rt with rw := { (latched .rt).rw with speed := 0 } }
def arrived : State := { moving .rt with rw := { (moving .rt).rw with target := 3, rampSteps := 1 } }

/-- Each way of resting. -/
theorem witness_RcompRestsWhenThereIsNothingToDo :
    ((unit .rt).port = .rt ∧ (unit .rt).nothingPending ∧ (unit .rt).rw.accel = 0) ∧
    (speedless.port = .rt ∧ speedless.nothingPending ∧ speedless.rw.speed = 0) ∧
    (arrived.port = .rt ∧ arrived.nothingPending ∧ arrived.rw.keep = false ∧ arrived.rw.pos = arrived.rw.target ∧
      arrived.rw.rampSteps.toNat ≤ 1) :=
  ⟨⟨rfl, ⟨rfl, rfl, rfl, rfl⟩, rfl⟩, ⟨rfl, ⟨rfl, rfl, rfl, rfl⟩, rfl⟩,
    ⟨rfl, ⟨rfl, rfl, rfl, rfl⟩, rfl, rfl, by decide +kernel⟩⟩

theorem witness_RcompTakesOneStepAlongTheRamp : (moving .rt).port = .rt ∧ (moving .rt).nothingPending ∧
    (moving .rt).rw.accel ≠ 0 ∧ (moving .rt).rw.speed ≠ 0 ∧
    ¬((moving .rt).rw.keep = false ∧ (moving .rt).rw.pos = (moving .rt).rw.target ∧
      (moving .rt).rw.rampSteps.toNat ≤ 1) :=
  ⟨rfl, moving_nothingPending .rt, by decide +kernel, by decide +kernel, by decide +kernel⟩

theorem witness_RfillKeepsBothPositionCountsTogether : (latched .rt).port = .rt ∧ (latched .rt).isFull = false ∧
    (latched .rt).qend = (latched .rt).rw.pos := by decide +kernel

/-- A moving ramp that meets the invariants, with a command presented. -/
def movingPlain : State := { moving .rt with cfg := plain, inbox := [rcompCommand] }

theorem witness_EveryStepKeepsTheRampInvariant : movingPlain.cfg.wf = true ∧ StagedInv movingPlain ∧
    RampInv movingPlain ∧ ∃ t, step movingPlain = .next t :=
  ⟨test_wf_plain, ⟨by decide +kernel, by decide +kernel, by decide +kernel⟩,
    ⟨by decide +kernel, by decide +kernel, by decide +kernel, by decide +kernel⟩, step_next _⟩

theorem witness_InvariantsHoldAtReset : plain.wf = true := test_wf_plain

theorem witness_EveryRunFromResetKeepsTheInvariants : plain.wf = true ∧
    ∃ t, Sys2Proof.core.run 2 { State.resetWith plain with inbox := [⟨.app, 0x3000000000⟩, rcompCommand] } = .next t :=
  ⟨test_wf_plain, run_next _ _⟩

/-- A move of 16 steps up from rest, its first and its last step. -/
theorem witness_AMoveFromRestTakesExactlyItsDistance : (latched .rt).nothingPending ∧ (latched .rt).hasTarget ∧
    (latched .rt).rw.rampSteps = 0 ∧ (latched .rt).rw.pos ≠ (latched .rt).rw.target ∧
    ((latched .rt).rw.target - (latched .rt).rw.pos).toInt.natAbs = 16 ∧ 1 ≤ 1 ∧ 1 ≤ 16 ∧ 16 ≤ 16 :=
  ⟨latched_nothingPending .rt, latched_hasTarget .rt, by decide +kernel, by decide +kernel, by decide +kernel, by decide⟩

/-- That move, whose ramp reaches the speed limit at `L = 5` and which is longer than twice that. -/
theorem witness_AMoveFromRestVisitsItsPhasesInOrder : (latched .rt).nothingPending ∧ (latched .rt).hasTarget ∧
    (latched .rt).rw.rampSteps = 0 ∧ (latched .rt).rw.pos ≠ (latched .rt).rw.target ∧
    (∃ t, RcompRun 1 (latched .rt) t) ∧ (∃ u, RcompRun 16 (latched .rt) u) ∧
    (let vc : Nat → Int := fun k =>
        (velcode (latched .rt).cfg k (fromU32 (latched .rt).cfg (latched .rt).rw.accel)).toInt
      let V : Int := (fromU32 (latched .rt).cfg (latched .rt).rw.speed).toInt
      (∀ k, 1 ≤ k → k < 5 → vc k < V) ∧ V ≤ vc 5 ∧
        2 * 5 < ((latched .rt).rw.target - (latched .rt).rw.pos).toInt.natAbs) :=
  ⟨latched_nothingPending .rt, latched_hasTarget .rt, by decide +kernel, by decide +kernel, rcompRun_exists _ _,
    rcompRun_exists _ _, fun k h₁ h₅ => by
      obtain rfl | rfl | rfl | rfl : k = 1 ∨ k = 2 ∨ k = 3 ∨ k = 4 := by omega
      all_goals decide +kernel, by decide +kernel, by decide +kernel⟩

theorem witness_EveryFixedTargetRampComesToRest : (latched .app).nothingPending ∧ (latched .app).hasTarget :=
  ⟨latched_nothingPending .app, latched_hasTarget .app⟩

/-- A graceful stop three steps up the ramp. -/
theorem witness_AGracefulStopRestsAfterTheStoppingDistance :
    stopping.req.istop = false ∧ stopping.rw.incomplete = false ∧ stopping.rw.reload = false ∧
    stopping.req.gstop = true ∧ stopping.rw.accel ≠ 0 ∧ stopping.rw.speed ≠ 0 ∧
    1 ≤ stopping.rw.rampSteps.toNat ∧ stopping.rw.rampSteps.toNat < 2 ^ 31 := by decide +kernel

end Sys2Proof.Tests
end

section
/-! Responses (R15, R81, R220): the state after an answer or a raised status, and the two fields of the response word. -/

namespace Sys2Proof.Machine

open Sys2Proof

theorem State.answer_eq (s : State) (d : BitVec 32) :
    s.answer d = { s with outbox := s.outbox ++ [⟨s.port, .ok, d⟩] } := rfl

theorem State.raise_eq (s : State) (st : Status) :
    s.raise st = { s with outbox := s.outbox ++ [⟨s.port, st, 0⟩] } := rfl

@[simp] theorem Response.word_statusField (r : Response) : r.word.extractLsb' 32 8 = r.status.code :=
  BitVec.extractLsb'_append_eq_left

@[simp] theorem Response.word_dataField (r : Response) : r.word.extractLsb' 0 32 = r.data :=
  BitVec.extractLsb'_append_eq_right

/-- Settles O5: the two state equations, the two fields of the response word, and the table of status numbers. -/
theorem responsesCarryStatusAndData : Obligations.ResponsesCarryStatusAndData := by
  refine ⟨fun s d st => ⟨s.answer_eq d, s.raise_eq st⟩, fun r => ⟨r.word_statusField, r.word_dataField⟩, ?statusNumbers⟩
  case statusNumbers => rfl

end Sys2Proof.Machine
end

section
/-! What a command can do to the unit, said once: an effect on the five records, then one response. A statement about
every command is then a case split over the effects. -/

namespace Sys2Proof.Machine

open Sys2Proof

/-- What a command of the application can put into `p` (R161 to R164, R183 to R186). -/
inductive StagedWrite (s : State) : Instr → Params → Prop
  | accel (x : BitVec 32) (hx : 0 < x.toInt) : StagedWrite s (.pacc x) (Params.markDirty { s.p with accel := x })
  | speed (x : U32) : StagedWrite s (.pspd x) (Params.markDirty { s.p with speed := x })
  | target (x : Position) : StagedWrite s (.ptgt x) (Params.markDirty { s.p with target := x })
  | keep (flag dir : Bool) :
      StagedWrite s (.pkeep flag dir) (Params.markDirty { s.p with keep := flag, keepDir := dir })
  | run (dir : Bool) : StagedWrite s (.rrun dir) (Params.markRequest { s.p with keep := true, keepDir := dir })
  | moveTo (x : Position) : StagedWrite s (.rmovt x) (Params.markRequest { s.p with target := x, keep := false })
  | moveBy (d : Position) :
      StagedWrite s (.rmove d) (Params.markRequest { s.p with target := s.moveTarget d, keep := false })
  | extend (d : Position) :
      StagedWrite s (.radv d) (Params.markRequest { s.p with target := wrap32 (sext s.p.target + sext d) })

/-- What a command does to the unit before it is answered, with the port it needs (R232). A command that is refused,
or that only reads, has the effect `nothing`. -/
inductive Effect (s : State) : Instr → State → Prop
  | nothing (i : Instr) : Effect s i s
  | stage {i : Instr} {p : Params} (hport : s.port = .app) (hw : StagedWrite s i p) : Effect s i (s.withP p)
  | push (ticks : BitVec 20) (stepsb : BitVec 8) (dir pause : Bool) (hport : s.port = .rt)
      (hroom : s.isFull = false) (hsteps : stepsb.toNat ≤ Config.maxSteps) :
      Effect s (.qpush ticks stepsb dir pause) (s.pushed ⟨ticks.extractLsb' 0 16, stepsb, dir, pause⟩)
  | pop (hport : s.port = .emit) (hentry : s.isEmpty = false) : Effect s .qpop s.popped
  | acknowledge (stepsb : BitVec 8) (dir : Bool) (hport : s.port = .emit) :
      Effect s (.qack stepsb dir) (s.acknowledged (signedSteps stepsb dir))
  | initialise (hport : s.port = .app) : Effect s .init s.initialised
  | publish (hport : s.port = .rt) (hdirty : s.p.dirty = true) : Effect s .pub s.published
  | askGraceful (hport : s.port = .app ∨ s.port = .rt) : Effect s .rstop (s.withReq s.req.askGraceful)
  | askImmediate (hport : s.port = .app ∨ s.port = .rt) : Effect s .ristop (s.withReq s.req.askImmediate)
  | sequence (hport : s.port = .rt) : Effect s .rcomp s.rcomp.1

/-- `t` is `s` after an effect of the command `i` and one response. -/
def Answered (i : Instr) (s t : State) : Prop :=
  ∃ (u : State) (st : Status) (d : BitVec 32), Effect s i u ∧ t = u.respond st d

theorem Effect.answered {i : Instr} {s u : State} (h : Effect s i u) (d : BitVec 32) : Answered i s (u.answer d) :=
  ⟨u, .ok, d, h, rfl⟩

theorem answered_answer (i : Instr) (s : State) (d : BitVec 32) : Answered i s (s.answer d) :=
  (Effect.nothing i).answered d

theorem answered_raise (i : Instr) (s : State) (st : Status) : Answered i s (s.raise st) :=
  ⟨s, st, 0, .nothing i, rfl⟩

theorem answered_checked {i : Instr} {s : State} {f : State → State} (hf : Answered i s (f s)) :
    Answered i s (s.checked f) := by
  rcases s.checked_cases f with ⟨_, h⟩ | ⟨_, h⟩ <;> rw [h]
  · exact hf
  · exact answered_raise i s _

/-- A command behind its port check is answered when its effect is, on the ports that may issue it. -/
theorem answered_onPort {i : Instr} {s t : State} {f : State → State} (h : s.onPort i f = .next t)
    (hf : permits i s.port = true → Answered i s (f s)) : Answered i s t := by
  rcases s.onPort_cases i f t h with ⟨hp, rfl⟩ | ⟨_, rfl⟩
  · exact hf hp
  · exact answered_raise i s _

/-! ## The commands that do more than answer -/

theorem answered_qpush {a : BitVec 20} {b : BitVec 8} {dir pause : Bool} {s t : State}
    (h : execQpush a b dir pause s = .next t) : Answered (.qpush a b dir pause) s t := by
  refine answered_onPort h fun hp => ?_
  split_ifs with hfull _ hsteps
  · exact answered_raise _ s _
  · exact answered_raise _ s _
  · exact answered_raise _ s _
  · have hroom : s.isFull = false := by simpa using hfull
    exact (Effect.push a b dir pause (of_decide_eq_true hp) hroom (Nat.le_of_not_lt hsteps)).answered _

theorem answered_qpop {s t : State} (h : execQpop s = .next t) : Answered .qpop s t := by
  refine answered_onPort h fun hp => ?_
  split
  · exact answered_answer _ s _
  next hempty => exact (Effect.pop (of_decide_eq_true hp) (by simpa using hempty)).answered _

theorem answered_qack {b : BitVec 8} {dir : Bool} {s t : State} (h : execQack b dir s = .next t) :
    Answered (.qack b dir) s t := by
  refine answered_onPort h fun hp => ?_
  split
  · exact answered_raise _ s _
  · exact (Effect.acknowledge b dir (of_decide_eq_true hp)).answered _

theorem answered_pacc {x : BitVec 32} {s t : State} (h : execPacc x s = .next t) : Answered (.pacc x) s t := by
  refine answered_onPort h fun hp => ?_
  dsimp only
  split
  · exact answered_raise _ s _
  next hx => exact (Effect.stage (of_decide_eq_true hp) (.accel x (Int.not_le.1 hx))).answered _

theorem answered_pchk {s t : State} (h : execPchk s = .next t) : Answered .pchk s t := by
  refine answered_onPort h fun _ => ?_
  split
  · exact answered_answer _ s _
  · exact answered_raise _ s _

theorem answered_pub {s t : State} (h : execPub s = .next t) : Answered .pub s t := by
  refine answered_onPort h fun hp => ?_
  split
  next hdirty => exact (Effect.publish (of_decide_eq_true hp) hdirty).answered _
  · exact answered_answer _ s _

theorem answered_rmovt {x : Position} {s t : State} (h : execRmovt x s = .next t) : Answered (.rmovt x) s t := by
  refine answered_onPort h fun hp => answered_checked ?_
  split
  · exact answered_answer _ s _
  · exact (Effect.stage (of_decide_eq_true hp) (.moveTo x)).answered _

theorem answered_rmove {d : Position} {s t : State} (h : execRmove d s = .next t) : Answered (.rmove d) s t := by
  refine answered_onPort h fun hp => answered_checked ?_
  split
  · exact answered_answer _ s _
  · exact (Effect.stage (of_decide_eq_true hp) (.moveBy d)).answered _

theorem answered_radv {d : Position} {s t : State} (h : execRadv d s = .next t) : Answered (.radv d) s t := by
  refine answered_onPort h fun hp => ?_
  dsimp only
  split
  · exact (Effect.stage (of_decide_eq_true hp) (.extend d)).answered _
  · exact answered_answer _ s _

/-- Everything a command can do: one of the effects, and one response. -/
theorem exec_answered {i : Instr} {s t : State} (h : exec i s = .next t) : Answered i s t := by
  unfold exec at h
  cases i with
  | qpush a b dir pause => exact answered_qpush h
  | qpop => exact answered_qpop h
  | qack b dir => exact answered_qack h
  | init => exact answered_onPort h fun hp => (Effect.initialise (of_decide_eq_true hp)).answered _
  | pacc x => exact answered_pacc h
  | pspd x => exact answered_onPort h fun hp => (Effect.stage (of_decide_eq_true hp) (.speed x)).answered _
  | ptgt x => exact answered_onPort h fun hp => (Effect.stage (of_decide_eq_true hp) (.target x)).answered _
  | pkeep flag dir =>
    exact answered_onPort h fun hp => (Effect.stage (of_decide_eq_true hp) (.keep flag dir)).answered _
  | pchk => exact answered_pchk h
  | pub => exact answered_pub h
  | rrun dir =>
    exact answered_onPort h fun hp => answered_checked ((Effect.stage (of_decide_eq_true hp) (.run dir)).answered _)
  | rmovt x => exact answered_rmovt h
  | rmove d => exact answered_rmove h
  | radv d => exact answered_radv h
  | rstop => exact answered_onPort h fun hp => (Effect.askGraceful (of_decide_eq_true hp)).answered _
  | ristop => exact answered_onPort h fun hp => (Effect.askImmediate (of_decide_eq_true hp)).answered _
  | rcomp => exact answered_onPort h fun hp => (Effect.sequence (of_decide_eq_true hp)).answered _
  | _ => exact answered_onPort h fun _ => answered_answer _ s _

/-- Nothing but an effect of a command changes the five records in a step: what holds of the unit's records and
survives every effect survives every step. -/
theorem step_preserves {P : State → Prop} (records : ∀ {s t : State}, SameUnit s t → P s → P t)
    (effect : ∀ {i : Instr} {s u : State}, Effect s i u → P s → P u) {s t : State} (h : step s = .next t)
    (hs : P s) : P t := by
  cases hin : s.inbox with
  | nil =>
    obtain rfl := Host.Outcome.next.inj ((step_idle s hin).symm.trans h)
    exact hs
  | cons c rest =>
    have hr : P (s.take c rest) := records (s := s) ⟨rfl, rfl, rfl, rfl, rfl, rfl⟩ hs
    rcases step_cases s c rest hin with ⟨i, _, hstep⟩ | ⟨r, _, hstep⟩
    · obtain ⟨u, st, d, he, rfl⟩ := exec_answered (hstep.symm.trans h)
      exact records (s := u) ⟨rfl, rfl, rfl, rfl, rfl, rfl⟩ (effect he hr)
    · obtain rfl := Host.Outcome.next.inj (hstep.symm.trans h)
      exact records (s := s.take c rest) ⟨rfl, rfl, rfl, rfl, rfl, rfl⟩ hr

end Sys2Proof.Machine
end

section
/-! The queue invariant (R38 to R41) under each effect: only a push, a pop, an acknowledgment and `INIT` write `cq`. -/

namespace Sys2Proof.Machine

open Sys2Proof

/-! ## Counting around the ring -/

theorem State.cqSlots_pos (s : State) : 0 < s.cfg.cqSlots := Nat.succ_pos _

/-- An index in `0..QUEUE_LEN` is a slot of the ring. -/
theorem State.mod_cqSlots (s : State) {i : Nat} (h : i ≤ s.cfg.queueLen) : i % s.cfg.cqSlots = i :=
  Nat.mod_eq_of_lt (Nat.lt_succ_of_le h)

/-- Behind the entries in flight lies the slot of the next push. -/
theorem State.flightSlot_count (s : State) (hr : s.cq.readIdx ≤ s.cfg.queueLen)
    (hw : s.cq.writeIdx ≤ s.cfg.queueLen) : s.flightSlot s.count = s.cq.writeIdx := by
  unfold State.flightSlot
  rcases Nat.lt_or_ge s.cq.writeIdx s.cq.readIdx with h | h
  · rw [s.count_of_lt h hr, Nat.add_sub_cancel' (by unfold Config.cqSlots; omega), Nat.add_mod_right, s.mod_cqSlots hw]
  · rw [s.count_of_le h hw, Nat.add_sub_cancel' h, s.mod_cqSlots hw]

/-- A queue that is not empty has an entry in flight. -/
theorem State.count_pos (s : State) (hr : s.cq.readIdx ≤ s.cfg.queueLen) (hw : s.cq.writeIdx ≤ s.cfg.queueLen)
    (h : s.isEmpty = false) : 0 < s.count := by
  rw [Nat.pos_iff_ne_zero]
  intro h0
  have hslot := s.flightSlot_count hr hw
  rw [h0, State.flightSlot, Nat.add_zero, s.mod_cqSlots hr] at hslot
  simp [State.isEmpty, hslot] at h

/-- The count as an integer. -/
theorem State.count_cast (s : State) :
    (s.count : Int) = ((s.cq.writeIdx : Int) - s.cq.readIdx) % s.cfg.cqSlots :=
  Int.toNat_of_nonneg (Int.emod_nonneg _ (Int.natCast_ne_zero.2 (Nat.succ_ne_zero _)))

/-- A push counts one entry more, around the ring. -/
theorem State.pushed_count (s : State) (e : QueueEntry) : (s.pushed e).count = (s.count + 1) % s.cfg.cqSlots := by
  zify
  rw [State.count_cast, State.count_cast, Int.emod_add_emod]
  show (((s.cq.writeIdx + 1) % s.cfg.cqSlots : Nat) - (s.cq.readIdx : Int)) % (s.cfg.cqSlots : Int) = _
  rw [Int.natCast_emod, Int.emod_sub_emod]
  congr 1
  push_cast
  ring

/-- A pop of a queue that is not empty counts one entry less. -/
theorem State.popped_count (s : State) (h : 0 < s.count) : s.popped.count + 1 = s.count := by
  have hlt : s.count < s.cfg.cqSlots := Nat.lt_succ_of_le s.count_le
  have hpop : (s.popped.count : Int) = ((s.count : Int) - 1) % s.cfg.cqSlots := by
    rw [State.count_cast, State.count_cast, Int.emod_sub_emod]
    show ((s.cq.writeIdx : Int) - ((s.cq.readIdx + 1) % s.cfg.cqSlots : Nat)) % (s.cfg.cqSlots : Int) = _
    rw [Int.natCast_emod, Int.sub_emod_emod]
    congr 1
    push_cast
    ring
  rw [Int.emod_eq_of_lt (by omega) (by omega)] at hpop
  omega

/-- After a pop the entries in flight lie in the same slots, the oldest left out. -/
theorem State.popped_flightSlot (s : State) (j : Nat) : s.popped.flightSlot j = s.flightSlot (j + 1) := by
  show ((s.cq.readIdx + 1) % s.cfg.cqSlots + j) % s.cfg.cqSlots = (s.cq.readIdx + (j + 1)) % s.cfg.cqSlots
  rw [Nat.mod_add_mod]
  congr 1
  omega

/-! ## The invariant under each write of `cq` -/

/-- The invariant reads the parameters and the queue only. -/
theorem QueueInv.congr {s t : State} (hcfg : t.cfg = s.cfg) (hcq : t.cq = s.cq) (h : QueueInv s) : QueueInv t where
  read_le := by rw [hcfg, hcq]; exact h.read_le
  write_le := by rw [hcfg, hcq]; exact h.write_le
  canonical := by rw [hcq]; exact h.canonical
  stored := by rw [hcfg, hcq]; exact h.stored
  flight j hj := by
    have hcount : t.count = s.count := s.count_congr t hcfg (by rw [hcq]) (by rw [hcq])
    have hslot : t.flightSlot j = s.flightSlot j := by rw [State.flightSlot, hcfg, hcq]; rfl
    rw [hcq, hslot]
    exact h.flight j (hcount ▸ hj)

theorem QueueInv.pushed {s : State} (h : QueueInv s) {e : QueueEntry} (he : e.steps.toNat ≤ Config.maxSteps) :
    QueueInv (s.pushed e) where
  read_le := h.read_le
  write_le := Nat.le_of_lt_succ (Nat.mod_lt _ s.cqSlots_pos)
  canonical := Memory.wf_write _ _ _ h.canonical
  stored i e' hi := by
    rw [State.pushed_read] at hi
    split at hi
    next hiw =>
      obtain rfl := Option.some.inj hi
      exact ⟨hiw ▸ h.write_le, he⟩
    next => exact h.stored i e' hi
  flight j hj := by
    show ((s.pushed e).cq.slot.read (s.flightSlot j)).isSome = true
    rw [State.pushed_read]
    split
    next => rfl
    next hslot =>
      have hne : j ≠ s.count := fun hj => hslot (hj ▸ s.flightSlot_count h.read_le h.write_le)
      have hle : (s.pushed e).count ≤ s.count + 1 := s.pushed_count e ▸ Nat.mod_le _ _
      exact h.flight j (by omega)

theorem QueueInv.popped {s : State} (h : QueueInv s) (hentry : s.isEmpty = false) : QueueInv s.popped where
  read_le := Nat.le_of_lt_succ (Nat.mod_lt _ s.cqSlots_pos)
  write_le := h.write_le
  canonical := h.canonical
  stored := h.stored
  flight j hj := by
    rw [s.popped_flightSlot]
    have hcount := s.popped_count (s.count_pos h.read_le h.write_le hentry)
    exact h.flight (j + 1) (by omega)

/-- The two counters are free: an acknowledgment leaves the indices and the slots. -/
theorem QueueInv.acknowledged {s : State} (h : QueueInv s) (d : Int) : QueueInv (s.acknowledged d) :=
  ⟨h.read_le, h.write_le, h.canonical, h.stored, h.flight⟩

/-- `INIT` leaves no entry in flight, whatever the slots hold. -/
theorem QueueInv.initialised {s : State} (h : QueueInv s) : QueueInv s.initialised where
  read_le := Nat.zero_le _
  write_le := Nat.zero_le _
  canonical := h.canonical
  stored := h.stored
  flight j hj := by
    have hcount : s.initialised.count = 0 := s.initialised.count_of_le (Nat.zero_le _) (Nat.zero_le _)
    omega

theorem Effect.keeps_queueInv {i : Instr} {s u : State} (he : Effect s i u) (h : QueueInv s) : QueueInv u := by
  cases he with
  | nothing => exact h
  | stage | publish | askGraceful | askImmediate => exact QueueInv.congr (s := s) rfl rfl h
  | push ticks stepsb dir pause _ _ hsteps => exact h.pushed hsteps
  | pop _ hentry => exact h.popped hentry
  | acknowledge => exact h.acknowledged _
  | initialise => exact h.initialised
  | sequence => exact h.congr s.rcomp_same.cfg s.rcomp_same.cq

/-- Settles O31: no effect breaks the invariant, and a step is one effect at most. -/
theorem everyStepKeepsTheQueueInvariant : Obligations.EveryStepKeepsTheQueueInvariant :=
  fun _ _ h hstep =>
    step_preserves (fun ⟨hcfg, _, _, _, _, hcq⟩ => QueueInv.congr hcfg hcq) Effect.keeps_queueInv hstep h

end Sys2Proof.Machine
end

section
/-! Ownership (R28 to R39, R231): which port and which command can change each register. -/

namespace Sys2Proof.Machine

open Sys2Proof

/-- The two flags are no part of the configuration that `PUB` copies (R167). -/
theorem Params.clearFlags_snapshot (p : Params) : p.clearFlags.snapshot = p.snapshot := rfl

/-- Settles O11: each effect needs a port that owns what it writes. -/
theorem eachPortWritesOnlyWhatItOwns : Obligations.EachPortWritesOnlyWhatItOwns := by
  intro i s t h
  obtain ⟨u, st, d, he, rfl⟩ := exec_answered h
  cases he with
  | nothing => simp
  | stage hport => simp [hport]
  | push _ _ _ _ hport => simp [hport, State.pushed]
  | pop hport => simp [hport, State.popped]
  | acknowledge _ _ hport => simp [hport, State.acknowledged]
  | initialise hport => simp [hport]
  | publish hport => simp [hport, s.published_frame, Params.clearFlags_snapshot]
  | askGraceful hport => rcases hport with hport | hport <;> simp [hport]
  | askImmediate hport => rcases hport with hport | hport <;> simp [hport]
  | sequence hport => simp [hport, s.rcomp_same.p, s.rcomp_same.cq]

/-- Settles O12: an effect that writes a register belongs to a command of the register's "written by" column; the
fields of `p` are split once more, over the staged writes. -/
theorem eachRegisterHasItsWriters : Obligations.EachRegisterHasItsWriters := by
  intro i s t h
  obtain ⟨u, st, d, he, rfl⟩ := exec_answered h
  cases he with
  | nothing => simp
  | stage _ hw => cases hw <;> simp [Params.markDirty, Params.markRequest]
  | push => simp [State.pushed]
  | pop => simp [State.popped]
  | acknowledge => simp [State.acknowledged]
  | initialise => simp [s.initialised_frame]
  | publish => simp [s.published_frame, Params.clearFlags]
  | askGraceful => simp
  | askImmediate => simp
  | sequence =>
    obtain ⟨hcfg, hp, hro, hcq, hport, hinbox, -⟩ := s.rcomp_same
    simp [hcfg, hp, hro, hcq, hport, hinbox]

end Sys2Proof.Machine
end

section
/-! The velocity codes a ramp step can have (R190, R200): with admissible tables they stay in `0..16383` (R35(c)). -/

namespace Sys2Proof.Machine

open Sys2Proof

/-- `wrap16` does nothing to a number that is an `s16`. -/
theorem wrap16_toInt_of_range {z : Int} (hlo : -32768 ≤ z) (hhi : z ≤ 32767) : (wrap16 z).toInt = z := by
  rw [wrap16_toInt, Int.bmod_eq_of_le] <;> omega

/-- T2 bounds every mantissa code by the last one (R108). -/
theorem fwdCode_le {c : Config} (hc : c.wf = true) {f : Nat} (hf : f ≤ 255) : c.fwdCode f ≤ 511 := by
  simp only [Config.wf, Config.tableT2, Bool.and_eq_true, List.all_eq_true, List.mem_range, decide_eq_true_eq] at hc
  obtain ⟨⟨_, hrise, hlast⟩, _⟩ := hc
  induction hf using Nat.decreasingInduction with
  | self => exact hlast
  | of_succ k hk ih => exact (Nat.le_of_lt (hrise k hk)).trans ih

/-- The code of a positive number below `2^k` lies in `0..512*k - 1` (R101(d) for `k = 32`). -/
theorem fromU32_range {c : Config} (hc : c.wf = true) {x : U32} {k : Nat} (hx : x.toNat ≠ 0) (hk : x.toNat < 2 ^ k)
    (hk32 : k ≤ 32) : 0 ≤ (fromU32 c x).toInt ∧ (fromU32 c x).toInt < 512 * (k : Int) := by
  have he : msb x.toNat < k := (Nat.log2_lt hx).2 hk
  unfold fromU32 logFrom zext
  rw [if_neg hx]
  dsimp only
  have hf : (if 8 ≤ msb x.toNat then x.toNat >>> (msb x.toNat - 8) % 256
      else x.toNat <<< (8 - msb x.toNat) % 256) ≤ 255 := by split <;> omega
  generalize (if 8 ≤ msb x.toNat then x.toNat >>> (msb x.toNat - 8) % 256
      else x.toNat <<< (8 - msb x.toNat) % 256) = f at hf ⊢
  have hcode := fwdCode_le hc hf
  unfold Config.fwdCode at hcode
  rw [wrap16_toInt_of_range] <;> omega

/-- `multiply` of two codes that do not add up past an `s16`. -/
theorem multiply_toInt {a b : LogValue} (hlo : -32768 ≤ a.toInt + b.toInt) (hhi : a.toInt + b.toInt ≤ 32767) :
    (multiply a b).toInt = a.toInt + b.toInt := wrap16_toInt_of_range hlo hhi

/-- The reciprocal of the reciprocal root is half the code (R190). -/
theorem reciprocal_reciprocalSqrt_toInt {a : LogValue} (ha : 0 ≤ a.toInt) :
    (reciprocal (reciprocalSqrt a)).toInt = a.toInt / 2 := by
  have hlt : a.toInt < 32768 := BitVec.toInt_lt (x := a)
  have hroot : (reciprocalSqrt a).toInt = -(a.toInt / 2) := by
    unfold reciprocalSqrt sext
    rw [Int.neg_tdiv, Int.tdiv_eq_ediv_of_nonneg ha, wrap16_toInt_of_range] <;> omega
  unfold reciprocal sext
  rw [hroot, Int.neg_neg, wrap16_toInt_of_range] <;> omega

/-- The velocity code of a ramp step, for an acceleration of R28's range: it does not wrap (R190). -/
theorem velcode_range {c : Config} (hc : c.wf = true) {a : U32} (ha : a ≠ 0) (hmax : a.toNat ≤ 2 ^ 31 - 1) {k : Nat}
    (hk : k ≠ 0) (hk32 : k < 2 ^ 32) :
    0 ≤ (velcode c k (fromU32 c a)).toInt ∧ (velcode c k (fromU32 c a)).toInt ≤ 16383 := by
  have hkn : (BitVec.ofNat 32 k).toNat = k := by rw [BitVec.toNat_ofNat, Nat.mod_eq_of_lt hk32]
  have hacc := fromU32_range hc (x := a) (k := 31) (by simpa [BitVec.toNat_eq] using ha) (by omega) (by decide)
  have hstep := fromU32_range hc (x := BitVec.ofNat 32 k) (k := 32) (by rwa [hkn]) (by rwa [hkn]) le_rfl
  have hshift : (shiftLeft (fromU32 c a) 1).toInt = (fromU32 c a).toInt + 512 := by
    refine wrap16_toInt_of_range (z := (fromU32 c a).toInt + 512) ?_ ?_ <;> omega
  have hsum : (multiply (shiftLeft (fromU32 c a) 1) (fromU32 c (BitVec.ofNat 32 k))).toInt =
      (fromU32 c a).toInt + 512 + (fromU32 c (BitVec.ofNat 32 k)).toInt := by
    rw [multiply_toInt, hshift] <;> omega
  unfold velcode
  rw [if_neg hk, reciprocal_reciprocalSqrt_toInt (by omega), hsum]
  omega

/-- Whichever of the ramp's velocity and the limit times a step, its code is in range (R200). -/
theorem State.rampVel_range {s : State} (hc : s.cfg.wf = true) (ha : s.rw.accel ≠ 0)
    (hmax : s.rw.accel.toNat ≤ 2 ^ 31 - 1) (hv : s.rw.speed ≠ 0) {k : Nat} (hk : k ≠ 0) (hk32 : k < 2 ^ 32) :
    0 ≤ (s.rampVel k).toInt ∧ (s.rampVel k).toInt ≤ 16383 := by
  have hramp : 0 ≤ (velcode s.cfg k s.accCode).toInt ∧ (velcode s.cfg k s.accCode).toInt ≤ 16383 :=
    velcode_range hc ha hmax hk hk32
  have hlimit : 0 ≤ s.limitCode.toInt ∧ s.limitCode.toInt < 512 * ((32 : Nat) : Int) :=
    fromU32_range hc (by simpa [BitVec.toNat_eq] using hv) s.rw.speed.isLt le_rfl
  unfold State.rampVel
  dsimp only
  split
  · exact hramp
  · split
    · exact hramp
    · omega

end Sys2Proof.Machine
end

section
/-! The invariants (a) to (d) of R35 under each effect: only `RCOMP`, `PUB` and `INIT` write `rw`. -/

namespace Sys2Proof.Machine

open Sys2Proof

/-- A ramp at rest meets (a) to (c) (R198, R203). -/
theorem RampInv.of_rest {s : State} (hsteps : s.rw.rampSteps = 0) (hvel : s.rw.vel = Config.logInvalid)
    (haccel : s.rw.accel.toNat ≤ 2 ^ 31 - 1) : RampInv s :=
  ⟨fun _ _ => ⟨hsteps, hvel⟩, fun _ _ => hvel, .inl hvel, haccel⟩

/-- A ramp in flight meets (a) to (c) when its velocity is that of its ramp step (R201). -/
theorem RampInv.of_moving {s : State} (hphase : s.rw.phase ≠ .idle)
    (hrest : s.rw.rampSteps = 0 → s.rw.vel = Config.logInvalid)
    (hcode : s.rw.vel = Config.logInvalid ∨ (0 ≤ s.rw.vel.toInt ∧ s.rw.vel.toInt ≤ 16383))
    (haccel : s.rw.accel.toNat ≤ 2 ^ 31 - 1) : RampInv s :=
  ⟨fun hidle _ => absurd hidle hphase, fun h _ => hrest h, hcode, haccel⟩

/-- The invariant reads `rw`, and not its `reload` flag. -/
theorem RampInv.congr {s t : State} (hrw : t.rw = { s.rw with reload := t.rw.reload }) (h : RampInv s) : RampInv t where
  idle_at_rest := by rw [hrw]; exact h.idle_at_rest
  rest_no_velocity := by rw [hrw]; exact h.rest_no_velocity
  velocity_code := by rw [hrw]; exact h.velocity_code
  accel_range := by rw [hrw]; exact h.accel_range

/-! ## The immediate stop (R194) -/

theorem State.immediateStop_rw (s : State) :
    s.immediateStop.1.rw =
      { s.rw with
        phase := .idle, vel := Config.logInvalid, reload := false
        incomplete := if s.rw.phase = .idle then s.rw.incomplete else true } := by
  unfold State.immediateStop
  by_cases h : s.rw.phase = .idle <;> simp [h, Running.clearReload, Running.recordIncomplete]

/-- A ramp stopped in flight is recorded as incomplete, so (a) and (b) ask nothing of its counters. -/
theorem RampInv.immediateStop {s : State} (h : RampInv s) : RampInv s.immediateStop.1 where
  idle_at_rest _ hincomplete := by
    rw [s.immediateStop_rw] at hincomplete ⊢
    by_cases hidle : s.rw.phase = .idle
    · exact ⟨(h.idle_at_rest hidle (by simpa [hidle] using hincomplete)).1, rfl⟩
    · simp [hidle] at hincomplete
  rest_no_velocity _ _ := by rw [s.immediateStop_rw]
  velocity_code := by rw [s.immediateStop_rw]; exact .inl rfl
  accel_range := by rw [s.immediateStop_rw]; exact h.accel_range

/-! ## The pending events (R193) -/

theorem State.reload_accel (s : State) : s.reload.rw.accel = s.ro.accel := by
  unfold State.reload
  dsimp only
  split <;> rfl

/-- The acceleration in effect after the pending events is the one before them, or the published one. -/
theorem State.servePending_accel (s : State) :
    s.servePending.rw.accel = s.rw.accel ∨ s.servePending.rw.accel = s.ro.accel := by
  unfold State.servePending
  dsimp only
  have hreconcile : (if s.rw.incomplete then s.reconcile else s).rw.accel = s.rw.accel ∧
      (if s.rw.incomplete then s.reconcile else s).ro = s.ro := by split <;> exact ⟨rfl, rfl⟩
  rw [← hreconcile.1, ← hreconcile.2]
  generalize (if s.rw.incomplete then s.reconcile else s) = a
  have hreload : (if a.rw.reload then a.reload else a).rw.accel = a.rw.accel ∨
      (if a.rw.reload then a.reload else a).rw.accel = a.ro.accel := by
    split
    · exact .inr a.reload_accel
    · exact .inl rfl
  generalize (if a.rw.reload then a.reload else a) = b at hreload
  split <;> exact hreload

/-! ## The step along the ramp (R198 to R203) -/

/-- Every ramp step decided is a count of 32 bits, and no decision is to be idle (R199). -/
theorem State.decidePhase_bounds (s : State) (want : Bool) (dist : Distance) :
    (s.decidePhase want dist).sn < 2 ^ 32 ∧ (s.decidePhase want dist).phase ≠ .idle := by
  have hn := s.rw.rampSteps.isLt
  rcases s.decidePhase_cases want dist with ⟨_, h⟩ | ⟨_, _, h⟩ | ⟨_, _, _, _, _, _, h⟩ | ⟨_, _, _, _, h⟩ <;>
    rw [h] <;> exact ⟨by dsimp only; omega, nofun⟩

/-- Settling keeps the invariant: it does nothing, or it puts the ramp at rest (R203). -/
theorem RampInv.settle {s : State} {r : Running} (h : RampInv (s.withRw r)) : RampInv (s.withRw r.settle) := by
  unfold Running.settle
  split
  · exact RampInv.of_rest rfl rfl h.accel_range
  · exact h

section

variable {s : State} (hc : s.cfg.wf = true) (hmax : s.rw.accel.toNat ≤ 2 ^ 31 - 1)

include hc hmax

theorem State.updateRamp_rampInv (ha : s.rw.accel ≠ 0) (hv : s.rw.speed ≠ 0) {ph : Phase} (hph : ph ≠ .idle)
    {sn : Nat} (hsn : sn < 2 ^ 32) : RampInv (s.updateRamp ph sn) := by
  refine RampInv.settle (RampInv.of_moving hph ?rest ?code hmax)
  case rest =>
    intro hzero
    have hsteps : sn % 2 ^ 32 = 0 := by simpa [BitVec.toNat_eq] using hzero
    exact if_pos (by omega)
  case code =>
    by_cases h : sn = 0
    · exact .inl (if_pos h)
    · rw [State.withRw_rw, if_neg h]
      exact .inr (State.rampVel_range hc ha hmax hv h hsn)

theorem State.takeStep_rampInv (ha : s.rw.accel ≠ 0) (hv : s.rw.speed ≠ 0) {d : Decision} (hph : d.phase ≠ .idle)
    (hsn : d.sn < 2 ^ 32) : RampInv (s.takeStep d).1 :=
  State.updateRamp_rampInv (s := s.withRw { s.rw with dir := d.dir }) hc hmax ha hv hph hsn

/-- One `RCOMP` with no event pending restores (a) to (c), whatever they were before. -/
theorem State.advance_rampInv : RampInv s.advance.1 := by
  rcases s.advance_cases with ⟨_, h⟩ | ⟨_, _, _, _, h⟩ | ⟨ha, hv, _, h⟩ <;> rw [h]
  · exact RampInv.of_rest rfl rfl hmax
  · exact RampInv.of_rest rfl rfl hmax
  · obtain ⟨hsn, hph⟩ := s.decidePhase_bounds s.rw.directionAndDistance.1 s.rw.directionAndDistance.2
    exact State.takeStep_rampInv hc hmax ha hv hph hsn

end

/-- `RCOMP` keeps (a) to (d): whatever the pending events leave, the step after them restores (a) to (c). -/
theorem State.rcomp_rampInv {s : State} (hc : s.cfg.wf = true) (hro : s.ro.accel.toNat ≤ 2 ^ 31 - 1) (h : RampInv s) :
    RampInv s.rcomp.1 := by
  unfold State.rcomp
  split
  · exact h.immediateStop
  · refine State.advance_rampInv (by rw [s.servePending_same.cfg]; exact hc) ?_
    rcases s.servePending_accel with ha | ha <;> rw [ha]
    · exact h.accel_range
    · exact hro

/-! ## The staging invariant and the parameters, which (a) to (d) rest on -/

theorem Effect.keeps_cfg {i : Instr} {s u : State} (he : Effect s i u) : u.cfg = s.cfg := by
  cases he with
  | sequence => exact s.rcomp_same.cfg
  | _ => rfl

theorem StagedWrite.dirty {s : State} {i : Instr} {p : Params} (h : StagedWrite s i p) : p.dirty = true := by
  cases h <;> rfl

/-- A staged acceleration is the one before or a positive one, which is at most `ACC_MAX` (R28, R161). -/
theorem StagedWrite.accel_le {s : State} {i : Instr} {p : Params} (h : StagedWrite s i p)
    (hs : s.p.accel.toNat ≤ 2 ^ 31 - 1) : p.accel.toNat ≤ 2 ^ 31 - 1 := by
  cases h with
  | accel x hx =>
    show x.toNat ≤ 2 ^ 31 - 1
    have hmsb := BitVec.toInt_pos_iff.1 hx.le
    omega
  | _ => exact hs

theorem StagedInv.congr {s t : State} (hp : t.p = s.p) (hro : t.ro = s.ro) (h : StagedInv s) : StagedInv t where
  apply_dirty := by rw [hp]; exact h.apply_dirty
  staged_accel := by rw [hp]; exact h.staged_accel
  published_accel := by rw [hro]; exact h.published_accel

theorem Effect.keeps_stagedInv {i : Instr} {s u : State} (he : Effect s i u) (h : StagedInv s) : StagedInv u := by
  cases he with
  | nothing => exact h
  | stage _ hw => exact ⟨fun _ => hw.dirty, hw.accel_le h.staged_accel, h.published_accel⟩
  | publish => exact ⟨nofun, h.staged_accel, h.staged_accel⟩
  | initialise => exact ⟨nofun, Nat.zero_le _, Nat.zero_le _⟩
  | sequence => exact h.congr s.rcomp_same.p s.rcomp_same.ro
  | push | pop | acknowledge | askGraceful | askImmediate => exact StagedInv.congr (s := s) rfl rfl h

/-- What every step keeps of the sequencer, with what it rests on. -/
structure SequencerInv (s : State) : Prop where
  config : s.cfg.wf = true
  staged : StagedInv s
  ramp : RampInv s

theorem SequencerInv.of_sameUnit {s t : State} (h : SameUnit s t) (hs : SequencerInv s) : SequencerInv t := by
  obtain ⟨hcfg, hp, hro, hrw, _, _⟩ := h
  exact ⟨hcfg ▸ hs.config, hs.staged.congr hp hro, hs.ramp.congr (by rw [hrw])⟩

theorem Effect.keeps_sequencerInv {i : Instr} {s u : State} (he : Effect s i u) (h : SequencerInv s) :
    SequencerInv u := by
  refine ⟨he.keeps_cfg ▸ h.config, he.keeps_stagedInv h.staged, ?ramp⟩
  case ramp =>
    cases he with
    | sequence => exact State.rcomp_rampInv h.config h.staged.published_accel h.ramp
    | publish =>
      obtain ⟨_, _, hrw, _⟩ := s.published_frame
      exact h.ramp.congr (by rw [hrw])
    | initialise => exact RampInv.of_rest rfl rfl (Nat.zero_le _)
    | _ => exact RampInv.congr (s := s) rfl h.ramp

theorem step_keeps_sequencerInv {s t : State} (h : SequencerInv s) (hstep : step s = .next t) : SequencerInv t :=
  step_preserves SequencerInv.of_sameUnit Effect.keeps_sequencerInv hstep h

/-- Settles O54: (a) to (d) are kept together with the staging invariant and the parameters. -/
theorem everyStepKeepsTheRampInvariant : Obligations.EveryStepKeepsTheRampInvariant :=
  fun _ _ hc hstaged hramp hstep => (step_keeps_sequencerInv ⟨hc, hstaged, hramp⟩ hstep).ramp

end Sys2Proof.Machine
end

section
/-! Runs from reset (R66): what holds at reset and survives every step holds after every number of steps. -/

namespace Sys2Proof.Machine

open Sys2Proof

theorem run_preserves {P : State → Prop} (hstep : ∀ {s t : State}, P s → step s = .next t → P t) {n : Nat}
    {s t : State} (hs : P s) (hrun : Sys2Proof.core.run n s = .next t) : P t := by
  induction n generalizing s with
  | zero => exact Host.Outcome.next.inj hrun ▸ hs
  | succ n ih =>
    obtain ⟨u, hu⟩ := step_next s
    exact ih (hstep hs hu) (run_succ n s u hu ▸ hrun)

theorem step_keeps_inv {s t : State} (h : Inv s) (hstep : step s = .next t) : Inv t := by
  obtain ⟨hconfig, hstaged, hramp⟩ := step_keeps_sequencerInv ⟨h.config, h.staged, h.ramp⟩ hstep
  exact ⟨hconfig, everyStepKeepsTheQueueInvariant _ _ h.queue hstep, hstaged, hramp⟩

/-- At reset the invariants hold, whatever commands are presented. -/
theorem resetWith_inv {c : Config} (hc : c.wf = true) (commands : List Command) :
    Inv { State.resetWith c with inbox := commands } where
  config := hc
  queue :=
    { read_le := Nat.zero_le _
      write_le := Nat.zero_le _
      canonical := Memory.wf_reset
      stored := nofun
      flight := fun j hj => by
        have hcount : State.count { State.resetWith c with inbox := commands } = 0 :=
          State.count_of_le _ le_rfl (Nat.zero_le _)
        omega }
  staged := ⟨nofun, Nat.zero_le _, Nat.zero_le _⟩
  ramp := RampInv.of_rest rfl rfl (Nat.zero_le _)

/-- Settles O56, by induction on the number of steps. -/
theorem everyRunFromResetKeepsTheInvariants : Obligations.EveryRunFromResetKeepsTheInvariants :=
  fun _ commands _ _ hc hrun => run_preserves step_keeps_inv (resetWith_inv hc commands) hrun

end Sys2Proof.Machine
end

section
/-! The command interface (R66, R76): a step takes one command from the inbox and puts one response on its port into
the outbox, so a run answers what is presented. -/

namespace Sys2Proof.Machine

open Sys2Proof

/-! ## One step -/

theorem step_of_decode {s : State} {c : Command} {rest : List Command} {i : Instr} (hin : s.inbox = c :: rest)
    (hd : decode c.word = .ok i) : step s = exec i (s.take c rest) := by
  rcases step_cases s c rest hin with ⟨j, hj, hstep⟩ | ⟨r, hr, _⟩
  · obtain rfl := Except.ok.inj (hd.symm.trans hj)
    exact hstep
  · exact nomatch hd.symm.trans hr

/-- Settles O6: the two outcomes of `step` that R66 and log entry 4 name. -/
theorem stepRunsTheDecodedCommand : Obligations.StepRunsTheDecodedCommand :=
  ⟨fun _ _ _ _ => step_of_decode, step_idle⟩

/-- No effect of a command touches the interface: the response comes after it. -/
theorem Effect.keeps_interface {i : Instr} {s u : State} (he : Effect s i u) :
    u.port = s.port ∧ u.inbox = s.inbox ∧ u.outbox = s.outbox := by
  cases he with
  | sequence => exact ⟨s.rcomp_same.port, s.rcomp_same.inbox, s.rcomp_same.outbox⟩
  | _ => exact ⟨rfl, rfl, rfl⟩

/-- A presented command, legal or not, is answered by one response on its port (R76, R81). -/
theorem step_answers {s : State} {c : Command} {rest : List Command} (hin : s.inbox = c :: rest) :
    ∃ (t : State) (r : Response), step s = .next t ∧ t.inbox = rest ∧ t.cfg = s.cfg ∧
      t.outbox = s.outbox ++ [r] ∧ r.port = c.port := by
  rcases step_cases s c rest hin with ⟨i, _, hstep⟩ | ⟨_, _, hstep⟩
  · obtain ⟨t, ht⟩ := exec_next i (s.take c rest)
    obtain ⟨u, st, d, he, rfl⟩ := exec_answered ht
    obtain ⟨hport, hinbox, houtbox⟩ := he.keeps_interface
    exact ⟨_, ⟨u.port, st, d⟩, hstep.trans ht, hinbox, he.keeps_cfg, by simp [houtbox], hport⟩
  · exact ⟨_, ⟨c.port, .illegalCommand, 0⟩, hstep, rfl, rfl, rfl, rfl⟩

/-! ## As many steps as commands -/

theorem run_answers {s : State} {commands : List Command} (hin : s.inbox = commands) :
    ∃ (t : State) (rs : List Response), Sys2Proof.core.run commands.length s = .next t ∧ t.inbox = [] ∧
      t.cfg = s.cfg ∧ t.outbox = s.outbox ++ rs ∧ rs.map (·.port) = commands.map (·.port) := by
  induction commands generalizing s with
  | nil => exact ⟨s, [], rfl, hin, rfl, (List.append_nil _).symm, rfl⟩
  | cons c rest ih =>
    obtain ⟨u, r, hstep, hinbox, hcfg, houtbox, hport⟩ := step_answers hin
    obtain ⟨t, rs, hrun, hempty, hcfg', houtbox', hports⟩ := ih hinbox
    exact ⟨t, r :: rs, (run_succ rest.length s u hstep).trans hrun, hempty, hcfg'.trans hcfg,
      by simp [houtbox', houtbox], by simp [hport, hports]⟩

/-- Settles O8, by induction on the inbox. -/
theorem presentedCommandsAreAllAnsweredInOrder : Obligations.PresentedCommandsAreAllAnsweredInOrder :=
  fun _ => run_answers rfl

end Sys2Proof.Machine
end

section
/-! What the sequencer reads (R70(b), R168(f), R193): two states that agree on the parameters, `ro`, `rw` and `req` go on
to two states that agree there, with the same entry. -/

namespace Sys2Proof.Machine

open Sys2Proof

/-- Two states agree on the records the sequencer reads. -/
structure SameSequencer (s t : State) : Prop where
  cfg : t.cfg = s.cfg
  ro : t.ro = s.ro
  rw : t.rw = s.rw
  req : t.req = s.req

/-- Two outcomes of the sequencer agree on those records and on the entry. -/
def SameMove (a b : State × QueueEntry) : Prop := SameSequencer a.1 b.1 ∧ b.2 = a.2

/-- What `RCOMP` may write is the whole difference between the two states. -/
theorem SameButRamp.eq {s t : State} (h : SameButRamp s t) : t = { s with rw := t.rw, req := t.req } := by
  obtain ⟨hcfg, hp, hro, hcq, hport, hinbox, houtbox⟩ := h
  rw [← hcfg, ← hp, ← hro, ← hcq, ← hport, ← hinbox, ← houtbox]

/-- An event that is pending in both states or in neither, served where it is. -/
theorem SameSequencer.served {s t s' t' : State} {pending pending' : Bool} (hpending : pending' = pending)
    (hevent : SameSequencer s' t') (h : SameSequencer s t) :
    SameSequencer (if pending then s' else s) (if pending' then t' else t) := by
  rw [hpending]
  split
  · exact hevent
  · exact h

section

variable {s t : State} (h : SameSequencer s t)

include h

theorem SameSequencer.withRw (r : Running) : SameSequencer (s.withRw r) (t.withRw r) := ⟨h.cfg, h.ro, rfl, h.req⟩

/-! ## The pending events (R194 to R197) -/

theorem SameSequencer.immediateStop : SameMove s.immediateStop t.immediateStop := by
  unfold State.immediateStop State.nullEntry
  rw [h.rw]
  exact ⟨⟨h.cfg, h.ro, rfl, rfl⟩, rfl⟩

theorem SameSequencer.reconcile : SameSequencer s.reconcile t.reconcile := by
  unfold State.reconcile
  rw [h.rw]
  exact h.withRw _

theorem SameSequencer.reload : SameSequencer s.reload t.reload := by
  unfold State.reload
  rw [h.rw, h.ro, h.cfg]
  dsimp only
  split <;> exact h.withRw _

theorem SameSequencer.gracefulStop : SameSequencer s.gracefulStop t.gracefulStop := by
  unfold State.gracefulStop
  rw [h.rw, h.req]
  exact ⟨h.cfg, h.ro, rfl, rfl⟩

/-- Both states have the same events pending, whatever those before them did. -/
theorem SameSequencer.servePending : SameSequencer s.servePending t.servePending :=
  have hreconciled := SameSequencer.served (congrArg Running.incomplete h.rw) h.reconcile h
  have hreloaded := SameSequencer.served (congrArg Running.reload hreconciled.rw) hreconciled.reload hreconciled
  SameSequencer.served (congrArg Requests.gstop hreloaded.req) hreloaded.gracefulStop hreloaded

/-! ## The step along the ramp (R198 to R203) -/

theorem SameSequencer.goIdle : SameMove s.goIdle t.goIdle := by
  unfold State.goIdle State.nullEntry
  rw [h.rw]
  exact ⟨h.withRw _, rfl⟩

theorem SameSequencer.rampVel (k : Nat) : t.rampVel k = s.rampVel k := by
  unfold State.rampVel State.accCode State.limitCode
  rw [h.rw, h.cfg]

theorem SameSequencer.decidePhase (want : Bool) (dist : Distance) :
    t.decidePhase want dist = s.decidePhase want dist := by
  unfold State.decidePhase State.overLimit State.accCode State.limitCode
  rw [h.rw, h.cfg]

theorem SameSequencer.makeEntry (k : Nat) : t.makeEntry k = s.makeEntry k := by
  unfold State.makeEntry
  rw [h.rampVel, h.rw, h.cfg]

theorem SameSequencer.updateRamp (ph : Phase) (sn : Nat) : SameSequencer (s.updateRamp ph sn) (t.updateRamp ph sn) := by
  unfold State.updateRamp
  rw [h.rampVel, h.rw]
  exact h.withRw _

theorem SameSequencer.takeStep (d : Decision) : SameMove (s.takeStep d) (t.takeStep d) := by
  unfold State.takeStep
  rw [h.rw]
  have hdir := h.withRw { s.rw with dir := d.dir }
  exact ⟨hdir.updateRamp d.phase d.sn, hdir.makeEntry d.k⟩

theorem SameSequencer.advance : SameMove s.advance t.advance := by
  unfold State.advance
  rw [h.rw]
  dsimp only
  split_ifs
  · exact h.goIdle
  · exact h.goIdle
  · rw [h.decidePhase]
    exact h.takeStep _

theorem SameSequencer.rcomp : SameMove s.rcomp t.rcomp := by
  unfold State.rcomp
  rw [h.req]
  split
  · exact h.immediateStop
  · exact h.servePending.advance

end

/-- With another staged configuration and another queue put in, `RCOMP` goes to the same state with these put in. -/
theorem State.rcomp_put (s : State) (p : Params) (q : Queue) :
    State.rcomp { s with p := p, cq := q } = ({ s.rcomp.1 with p := p, cq := q }, s.rcomp.2) := by
  have hsame : SameMove s.rcomp (State.rcomp { s with p := p, cq := q }) := SameSequencer.rcomp ⟨rfl, rfl, rfl, rfl⟩
  obtain ⟨hread, hentry⟩ := hsame
  refine Prod.ext ?_ hentry
  rw [(State.rcomp_same { s with p := p, cq := q }).eq, s.rcomp_same.eq, hread.rw, hread.req]

/-- Settles O13: neither the sequencer nor the port check before it reads or writes the two records. -/
theorem sequencerReadsNeitherStagingNorQueue : Obligations.SequencerReadsNeitherStagingNorQueue := by
  intro s t p q h
  unfold exec execRcomp at h ⊢
  rcases s.onPort_cases .rcomp _ t h with ⟨hport, rfl⟩ | ⟨hport, rfl⟩
  · rw [State.onPort_allowed { s with p := p, cq := q } .rcomp _ hport, s.rcomp_put]
    rfl
  · exact State.onPort_refused { s with p := p, cq := q } .rcomp _ hport

end Sys2Proof.Machine
end

section
/-! The operand formats and the opcode map (R80, R82, R84, R86). Each format's decoder answers what its encoder writes
and nothing else, so the decoder is the inverse of the encoder; the masks of the opcode table say which words these are. -/

namespace Sys2Proof

/-! ## Fields of bit vectors -/

/-- A one-bit field, read as a Boolean and put back. -/
theorem ofBool_getLsbD {w : Nat} (v : BitVec w) (n : Nat) : BitVec.ofBool (v.getLsbD n) = v.extractLsb' n 1 := by
  rw [BitVec.getLsbD_eq_extractLsb']
  generalize v.extractLsb' n 1 = bit
  revert bit
  decide

theorem ofBool_beq_one (b : Bool) : (BitVec.ofBool b == 1#1) = b := by cases b <;> rfl

/-- A field in which the mask has ones everywhere is zero when the masked vector is. -/
theorem field_eq_zero_of_masked {w : Nat} {v mask : BitVec w} (h : v &&& mask = 0) {start len : Nat}
    (hmask : mask.extractLsb' start len = BitVec.allOnes len) : v.extractLsb' start len = 0 :=
  calc v.extractLsb' start len
      = v.extractLsb' start len &&& mask.extractLsb' start len := by rw [hmask, BitVec.and_allOnes]
    _ = (v &&& mask).extractLsb' start len := BitVec.extractLsb'_and.symm
    _ = 0 := by rw [h]; simp

/-! ## The encoder's fields, read back (R82): each lies in one part of the concatenation and is the whole of it -/

section

variable (op : BitVec 8)

theorem decodeB8_encodeB8 (x : BitVec 8) (k : BitVec 8 → Instr) : decodeB8 op (encodeB8 x) k = .ok (k x) := by
  unfold decodeB8 encodeB8
  simp only [BitVec.extractLsb'_append_eq_left, BitVec.extractLsb'_append_eq_right,
    BitVec.ofNat_eq_ofNat, if_true]

theorem decodeH16_encodeH16 (x : BitVec 16) (k : BitVec 16 → Instr) : decodeH16 op (encodeH16 x) k = .ok (k x) := by
  unfold decodeH16 encodeH16
  simp only [BitVec.extractLsb'_append_eq_left, BitVec.extractLsb'_append_eq_right,
    BitVec.ofNat_eq_ofNat, if_true]

theorem decodeLL_encodeLL (a b : LogValue) (k : LogValue → LogValue → Instr) :
    decodeLL (encodeLL a b) k = .ok (k a b) := by
  unfold decodeLL encodeLL
  rw [BitVec.extractLsb'_append_eq_left, BitVec.extractLsb'_append_eq_right]

theorem decodeLN_encodeLN (a : LogValue) (n : BitVec 8) (k : LogValue → BitVec 8 → Instr) :
    decodeLN op (encodeLN a n) k = .ok (k a n) := by
  unfold decodeLN encodeLN
  simp (disch := decide) only [BitVec.extractLsb'_append_eq_of_le, BitVec.extractLsb'_append_eq_right,
    BitVec.extractLsb'_eq_self, Nat.reduceSub, BitVec.ofNat_eq_ofNat, if_true]

theorem decodeQ_encodeQ (ticks : BitVec 20) (stepsb : BitVec 8) (dir pause : Bool)
    (k : BitVec 20 → BitVec 8 → Bool → Bool → Instr) :
    decodeQ op (encodeQ ticks stepsb dir pause) k = .ok (k ticks stepsb dir pause) := by
  unfold decodeQ encodeQ
  simp (disch := decide) only [BitVec.getLsbD_eq_extractLsb', BitVec.extractLsb'_append_eq_of_le,
    BitVec.extractLsb'_append_eq_right, BitVec.extractLsb'_eq_self, Nat.reduceSub, ofBool_beq_one,
    BitVec.ofNat_eq_ofNat, if_true]

theorem decodeQA_encodeQA (stepsb : BitVec 8) (dir : Bool) (k : BitVec 8 → Bool → Instr) :
    decodeQA op (encodeQA stepsb dir) k = .ok (k stepsb dir) := by
  unfold decodeQA encodeQA
  simp (disch := decide) only [BitVec.getLsbD_eq_extractLsb', BitVec.extractLsb'_append_eq_of_le,
    BitVec.extractLsb'_append_eq_right, BitVec.extractLsb'_eq_self, Nat.reduceSub, ofBool_beq_one,
    BitVec.ofNat_eq_ofNat, and_self, if_true]

theorem decodeD1_encodeD1 (dir : Bool) (k : Bool → Instr) : decodeD1 op (encodeD1 dir) k = .ok (k dir) := by
  unfold decodeD1 encodeD1
  simp only [BitVec.getLsbD_eq_extractLsb', BitVec.extractLsb'_append_eq_left,
    BitVec.extractLsb'_append_eq_right, ofBool_beq_one, BitVec.ofNat_eq_ofNat, if_true]

theorem decodeKD_encodeKD (flag dir : Bool) (k : Bool → Bool → Instr) :
    decodeKD op (encodeKD flag dir) k = .ok (k flag dir) := by
  unfold decodeKD encodeKD
  simp (disch := decide) only [BitVec.getLsbD_eq_extractLsb', BitVec.extractLsb'_append_eq_of_le,
    BitVec.extractLsb'_append_eq_right, BitVec.extractLsb'_eq_self, Nat.reduceSub, ofBool_beq_one,
    BitVec.ofNat_eq_ofNat, if_true]

end

/-! ## The operand field, put together again: the reserved bits, found zero, and the operands are neighbouring fields -/

section

variable {op : BitVec 8} {arg : Arg} {i : Instr}

theorem decodeZ_ok {c : Instr} (h : decodeZ op arg c = .ok i) : 0 = arg ∧ c = i := by
  unfold decodeZ at h
  split_ifs at h with hreserved
  exact ⟨hreserved.symm, Except.ok.inj h⟩

theorem decodeB8_ok {k : BitVec 8 → Instr} (h : decodeB8 op arg k = .ok i) : ∃ x, encodeB8 x = arg ∧ k x = i := by
  unfold decodeB8 at h
  split_ifs at h with hreserved
  refine ⟨_, ?_, Except.ok.inj h⟩
  unfold encodeB8
  rw [← show arg.extractLsb' 8 24 = 0#24 from hreserved]
  exact BitVec.extractLsb'_append_extractLsb'

theorem decodeH16_ok {k : BitVec 16 → Instr} (h : decodeH16 op arg k = .ok i) :
    ∃ x, encodeH16 x = arg ∧ k x = i := by
  unfold decodeH16 at h
  split_ifs at h with hreserved
  refine ⟨_, ?_, Except.ok.inj h⟩
  unfold encodeH16
  rw [← show arg.extractLsb' 16 16 = 0#16 from hreserved]
  exact BitVec.extractLsb'_append_extractLsb'

theorem decodeLL_ok {k : LogValue → LogValue → Instr} (h : decodeLL arg k = .ok i) :
    ∃ a b, encodeLL a b = arg ∧ k a b = i :=
  ⟨_, _, BitVec.extractLsb'_append_extractLsb', Except.ok.inj h⟩

theorem decodeLN_ok {k : LogValue → BitVec 8 → Instr} (h : decodeLN op arg k = .ok i) :
    ∃ a n, encodeLN a n = arg ∧ k a n = i := by
  unfold decodeLN at h
  split_ifs at h with hreserved
  refine ⟨_, _, ?_, Except.ok.inj h⟩
  unfold encodeLN
  rw [← show arg.extractLsb' 24 8 = 0#8 from hreserved]
  simp (disch := decide) only [BitVec.extractLsb'_append_extractLsb'_eq_extractLsb', BitVec.extractLsb'_eq_self]

theorem decodeQ_ok {k : BitVec 20 → BitVec 8 → Bool → Bool → Instr} (h : decodeQ op arg k = .ok i) :
    ∃ ticks stepsb dir pause, encodeQ ticks stepsb dir pause = arg ∧ k ticks stepsb dir pause = i := by
  unfold decodeQ at h
  split_ifs at h with hreserved
  refine ⟨_, _, _, _, ?_, Except.ok.inj h⟩
  unfold encodeQ
  rw [← show arg.extractLsb' 30 2 = 0#2 from hreserved]
  simp (disch := decide) only [ofBool_getLsbD, BitVec.extractLsb'_append_extractLsb'_eq_extractLsb',
    BitVec.extractLsb'_eq_self]

theorem decodeQA_ok {k : BitVec 8 → Bool → Instr} (h : decodeQA op arg k = .ok i) :
    ∃ stepsb dir, encodeQA stepsb dir = arg ∧ k stepsb dir = i := by
  unfold decodeQA at h
  split_ifs at h with hreserved
  obtain ⟨hlow, hhigh⟩ := hreserved
  refine ⟨_, _, ?_, Except.ok.inj h⟩
  unfold encodeQA
  rw [← show arg.extractLsb' 29 3 = 0#3 from hhigh, ← show arg.extractLsb' 0 20 = 0#20 from hlow]
  simp (disch := decide) only [ofBool_getLsbD, BitVec.extractLsb'_append_extractLsb'_eq_extractLsb',
    BitVec.extractLsb'_eq_self]

theorem decodeD1_ok {k : Bool → Instr} (h : decodeD1 op arg k = .ok i) : ∃ dir, encodeD1 dir = arg ∧ k dir = i := by
  unfold decodeD1 at h
  split_ifs at h with hreserved
  refine ⟨_, ?_, Except.ok.inj h⟩
  unfold encodeD1
  rw [← show arg.extractLsb' 1 31 = 0#31 from hreserved, ofBool_getLsbD]
  exact BitVec.extractLsb'_append_extractLsb'

theorem decodeKD_ok {k : Bool → Bool → Instr} (h : decodeKD op arg k = .ok i) :
    ∃ flag dir, encodeKD flag dir = arg ∧ k flag dir = i := by
  unfold decodeKD at h
  split_ifs at h with hreserved
  refine ⟨_, _, ?_, Except.ok.inj h⟩
  unfold encodeKD
  rw [← show arg.extractLsb' 2 30 = 0#30 from hreserved]
  simp (disch := decide) only [ofBool_getLsbD, BitVec.extractLsb'_append_extractLsb'_eq_extractLsb',
    BitVec.extractLsb'_eq_self]

end

/-! ## The opcode map (R84): one case for each format -/

theorem decodeFields_opcode_arg (i : Instr) : decodeFields i.opcode i.arg = .ok i := by
  cases i
  case lfrom8 x => exact decodeB8_encodeB8 _ x _
  case lfrom16 x | lto16 x | lto32 x | lrcp x | lsqr x | lrsqr x | lrsqrt x => exact decodeH16_encodeH16 _ x _
  case lfrom32 x | pacc x | pspd x | ptgt x | rmovt x | rmove x | radv x => rfl
  case lmul a b | ldiv a b => exact decodeLL_encodeLL a b _
  case lshl a n | lshr a n => exact decodeLN_encodeLN _ a n _
  case qpush ticks stepsb dir pause => exact decodeQ_encodeQ _ ticks stepsb dir pause _
  case qack stepsb dir => exact decodeQA_encodeQA _ stepsb dir _
  case pkeep flag dir => exact decodeKD_encodeKD _ flag dir _
  case rrun dir => exact decodeD1_encodeD1 _ dir _
  case qpop | qempty | qfull | qend | init | pchk | pub | rstop | ristop | rgacc | rcomp => rfl

/-- The cases are numbered as the rows of R84 stand in `decodeFields`. -/
theorem opcode_arg_of_decodeFields {op : BitVec 8} {arg : Arg} {i : Instr} (h : decodeFields op arg = .ok i) :
    i.opcode = op ∧ i.arg = arg := by
  unfold decodeFields at h
  split at h
  case h_1 hop =>
    obtain ⟨x, rfl, rfl⟩ := decodeB8_ok h
    exact ⟨BitVec.eq_of_toNat_eq hop.symm, rfl⟩
  case h_2 hop | h_4 hop | h_5 hop | h_8 hop | h_9 hop | h_10 hop | h_11 hop =>
    obtain ⟨x, rfl, rfl⟩ := decodeH16_ok h
    exact ⟨BitVec.eq_of_toNat_eq hop.symm, rfl⟩
  case h_3 hop | h_21 hop | h_22 hop | h_23 hop | h_28 hop | h_29 hop | h_30 hop =>
    obtain rfl := Except.ok.inj h
    exact ⟨BitVec.eq_of_toNat_eq hop.symm, rfl⟩
  case h_6 hop | h_7 hop =>
    obtain ⟨a, b, rfl, rfl⟩ := decodeLL_ok h
    exact ⟨BitVec.eq_of_toNat_eq hop.symm, rfl⟩
  case h_12 hop | h_13 hop =>
    obtain ⟨a, n, rfl, rfl⟩ := decodeLN_ok h
    exact ⟨BitVec.eq_of_toNat_eq hop.symm, rfl⟩
  case h_14 hop =>
    obtain ⟨ticks, stepsb, dir, pause, rfl, rfl⟩ := decodeQ_ok h
    exact ⟨BitVec.eq_of_toNat_eq hop.symm, rfl⟩
  case h_18 hop =>
    obtain ⟨stepsb, dir, rfl, rfl⟩ := decodeQA_ok h
    exact ⟨BitVec.eq_of_toNat_eq hop.symm, rfl⟩
  case h_24 hop =>
    obtain ⟨flag, dir, rfl, rfl⟩ := decodeKD_ok h
    exact ⟨BitVec.eq_of_toNat_eq hop.symm, rfl⟩
  case h_27 hop =>
    obtain ⟨dir, rfl, rfl⟩ := decodeD1_ok h
    exact ⟨BitVec.eq_of_toNat_eq hop.symm, rfl⟩
  case h_15 hop | h_16 hop | h_17 hop | h_19 hop | h_20 hop | h_25 hop | h_26 hop | h_31 hop | h_32 hop | h_33 hop
      | h_34 hop =>
    obtain ⟨rfl, rfl⟩ := decodeZ_ok h
    exact ⟨BitVec.eq_of_toNat_eq hop.symm, rfl⟩
  case h_35 => exact nomatch h

/-! ## Words and their bytes (R64, R80) -/

theorem opcodeOf_append_argOf (w : Word) : opcodeOf w ++ argOf w = w := BitVec.extractLsb'_append_extractLsb'

theorem decode_encode (i : Instr) : decode (encode i) = .ok i := by
  have hop : opcodeOf (encode i) = i.opcode := BitVec.extractLsb'_append_eq_left
  have harg : argOf (encode i) = i.arg := BitVec.extractLsb'_append_eq_right
  unfold decode
  rw [hop, harg, decodeFields_opcode_arg]

theorem encode_of_decode {w : Word} {i : Instr} (h : decode w = .ok i) : encode i = w := by
  obtain ⟨hop, harg⟩ := opcode_arg_of_decodeFields h
  unfold encode
  rw [hop, harg, opcodeOf_append_argOf]

theorem wordOfBytes_bytesOfWord (w : Word) : wordOfBytes (bytesOfWord w) = some w := by
  refine congrArg some ?_
  simp (disch := decide) only [BitVec.extractLsb'_append_extractLsb'_eq_extractLsb', BitVec.extractLsb'_eq_self]

theorem decodeBytes_bytesOfWord (w : Word) : decodeBytes (bytesOfWord w) = decode w := by
  unfold decodeBytes
  rw [wordOfBytes_bytesOfWord]

/-- Settles O1: the opcode map reads back the opcode and the operand field that `encode` writes, and the five bytes
carry the whole word. -/
theorem everyCommandRoundTripsThroughItsWord : Obligations.EveryCommandRoundTripsThroughItsWord :=
  fun i => ⟨decode_encode i, (decodeBytes_bytesOfWord _).trans (decode_encode i)⟩

/-- Settles O2: a decoder that answers has found the reserved bits zero, so the fields it read make up the word. -/
theorem everyLegalWordIsTheEncodingOfItsCommand : Obligations.EveryLegalWordIsTheEncodingOfItsCommand :=
  fun _ _ => encode_of_decode

theorem decode_of_encode {w : Word} {i : Instr} (h : encode i = w) : decode w = .ok i := h ▸ decode_encode i

/-- Settles O4: each word is the encoding of its command. -/
theorem wordsOfTheSpecDecode : Obligations.WordsOfTheSpecDecode :=
  ⟨decode_of_encode rfl, decode_of_encode rfl, decode_of_encode rfl, decode_of_encode rfl, decode_of_encode rfl,
    decode_of_encode rfl, decode_of_encode rfl, decode_of_encode rfl, decode_of_encode rfl, decode_of_encode rfl,
    decode_of_encode rfl, decode_of_encode rfl⟩

end Sys2Proof
end

section
/-! The opcode table as the criterion of legality (R82, R86): a word is a command exactly when one of the rows matches,
and the rows exclude each other by their opcodes. -/

namespace Sys2Proof

/-! ## The rows -/

/-- Every row's mask tests the whole opcode and its pattern asks for zeros in the operand field (R82). -/
theorem opcodeTable_shape : ∀ r ∈ opcodeTable, opcodeOf r.mask = BitVec.allOnes 8 ∧ argOf r.pattern = 0 := by decide

theorem eq_of_opcodeOf_pattern : ∀ r₁ ∈ opcodeTable, ∀ r₂ ∈ opcodeTable,
    opcodeOf r₁.pattern = opcodeOf r₂.pattern → r₁ = r₂ := by decide

/-- A word that matches a row has the row's opcode, and zeros where the row's mask tests the operand field. -/
theorem OpcodeRow.matchesWord.fields {r : OpcodeRow} {w : Word} (h : r.matchesWord w) (hr : r ∈ opcodeTable) :
    opcodeOf w = opcodeOf r.pattern ∧ argOf w &&& argOf r.mask = 0 := by
  obtain ⟨hmask, hpattern⟩ := opcodeTable_shape r hr
  constructor
  · calc opcodeOf w
        = opcodeOf w &&& opcodeOf r.mask := by rw [hmask, BitVec.and_allOnes]
      _ = opcodeOf (w &&& r.mask) := BitVec.extractLsb'_and.symm
      _ = opcodeOf r.pattern := congrArg opcodeOf h
  · calc argOf w &&& argOf r.mask
        = argOf (w &&& r.mask) := BitVec.extractLsb'_and.symm
      _ = argOf r.pattern := congrArg argOf h
      _ = 0 := hpattern

/-! ## Each format accepts an operand field that is zero in its reserved bits (`W32` and `LL` reserve none) -/

section

variable {op : BitVec 8}

theorem decodeZ_legal {i : Instr} (arg : Arg) (h : arg &&& 0xFFFFFFFF#32 = 0) : ∃ j, decodeZ op arg i = .ok j :=
  ⟨_, if_pos (BitVec.and_allOnes.symm.trans h)⟩

theorem decodeB8_legal {k : BitVec 8 → Instr} (arg : Arg) (h : arg &&& 0xFFFFFF00#32 = 0) :
    ∃ j, decodeB8 op arg k = .ok j :=
  ⟨_, if_pos (field_eq_zero_of_masked h rfl)⟩

theorem decodeH16_legal {k : BitVec 16 → Instr} (arg : Arg) (h : arg &&& 0xFFFF0000#32 = 0) :
    ∃ j, decodeH16 op arg k = .ok j :=
  ⟨_, if_pos (field_eq_zero_of_masked h rfl)⟩

theorem decodeW32_legal {k : BitVec 32 → Instr} (arg : Arg) (_ : arg &&& 0x00000000#32 = 0) :
    ∃ j, decodeW32 arg k = .ok j :=
  ⟨_, rfl⟩

theorem decodeLL_legal {k : LogValue → LogValue → Instr} (arg : Arg) (_ : arg &&& 0x00000000#32 = 0) :
    ∃ j, decodeLL arg k = .ok j :=
  ⟨_, rfl⟩

theorem decodeLN_legal {k : LogValue → BitVec 8 → Instr} (arg : Arg) (h : arg &&& 0xFF000000#32 = 0) :
    ∃ j, decodeLN op arg k = .ok j :=
  ⟨_, if_pos (field_eq_zero_of_masked h rfl)⟩

theorem decodeQ_legal {k : BitVec 20 → BitVec 8 → Bool → Bool → Instr} (arg : Arg) (h : arg &&& 0xC0000000#32 = 0) :
    ∃ j, decodeQ op arg k = .ok j :=
  ⟨_, if_pos (field_eq_zero_of_masked h rfl)⟩

theorem decodeQA_legal {k : BitVec 8 → Bool → Instr} (arg : Arg) (h : arg &&& 0xE00FFFFF#32 = 0) :
    ∃ j, decodeQA op arg k = .ok j :=
  ⟨_, if_pos ⟨field_eq_zero_of_masked h rfl, field_eq_zero_of_masked h rfl⟩⟩

theorem decodeD1_legal {k : Bool → Instr} (arg : Arg) (h : arg &&& 0xFFFFFFFE#32 = 0) : ∃ j, decodeD1 op arg k = .ok j :=
  ⟨_, if_pos (field_eq_zero_of_masked h rfl)⟩

theorem decodeKD_legal {k : Bool → Bool → Instr} (arg : Arg) (h : arg &&& 0xFFFFFFFC#32 = 0) :
    ∃ j, decodeKD op arg k = .ok j :=
  ⟨_, if_pos (field_eq_zero_of_masked h rfl)⟩

end

/-! ## Legality -/

/-- The decoder accepts the row's opcode with every operand field that the row's mask admits. -/
def OpcodeRow.Decodes (r : OpcodeRow) : Prop :=
  ∀ arg : Arg, arg &&& argOf r.mask = 0 → ∃ i, decodeFields (opcodeOf r.pattern) arg = .ok i

/-- The formats of the rows, in the order of the table. -/
theorem opcodeTable_decodes : ∀ r ∈ opcodeTable, r.Decodes := by
  simp only [opcodeTable, opcodeRowsLau, opcodeRowsCqPrm, opcodeRowsRsq, List.forall_mem_append, List.forall_mem_cons]
  exact ⟨⟨⟨decodeB8_legal, decodeH16_legal, decodeW32_legal, decodeH16_legal, decodeH16_legal, decodeLL_legal,
      decodeLL_legal, decodeH16_legal, decodeH16_legal, decodeH16_legal, decodeH16_legal, decodeLN_legal,
      decodeLN_legal, List.forall_mem_nil _⟩,
    decodeQ_legal, decodeZ_legal, decodeZ_legal, decodeZ_legal, decodeQA_legal, decodeZ_legal, decodeZ_legal,
      decodeW32_legal, decodeW32_legal, decodeW32_legal, decodeKD_legal, decodeZ_legal, decodeZ_legal,
      List.forall_mem_nil _⟩,
    decodeD1_legal, decodeW32_legal, decodeW32_legal, decodeW32_legal, decodeZ_legal, decodeZ_legal, decodeZ_legal,
      decodeZ_legal, List.forall_mem_nil _⟩

theorem encode_matchesRow : ∀ i : Instr, Laws.RowMatch.Statement i
  | .lfrom8 x => Laws.RowMatch.lfrom8 x
  | .lfrom16 x => Laws.RowMatch.lfrom16 x
  | .lfrom32 x => Laws.RowMatch.lfrom32 x
  | .lto16 v => Laws.RowMatch.lto16 v
  | .lto32 v => Laws.RowMatch.lto32 v
  | .lmul a b => Laws.RowMatch.lmul a b
  | .ldiv a b => Laws.RowMatch.ldiv a b
  | .lrcp a => Laws.RowMatch.lrcp a
  | .lsqr a => Laws.RowMatch.lsqr a
  | .lrsqr a => Laws.RowMatch.lrsqr a
  | .lrsqrt a => Laws.RowMatch.lrsqrt a
  | .lshl a n => Laws.RowMatch.lshl a n
  | .lshr a n => Laws.RowMatch.lshr a n
  | .qpush ticks stepsb dir pause => Laws.RowMatch.qpush ticks stepsb dir pause
  | .qpop => Laws.RowMatch.qpop
  | .qempty => Laws.RowMatch.qempty
  | .qfull => Laws.RowMatch.qfull
  | .qack stepsb dir => Laws.RowMatch.qack stepsb dir
  | .qend => Laws.RowMatch.qend
  | .init => Laws.RowMatch.init
  | .pacc x => Laws.RowMatch.pacc x
  | .pspd x => Laws.RowMatch.pspd x
  | .ptgt x => Laws.RowMatch.ptgt x
  | .pkeep flag dir => Laws.RowMatch.pkeep flag dir
  | .pchk => Laws.RowMatch.pchk
  | .pub => Laws.RowMatch.pub
  | .rrun dir => Laws.RowMatch.rrun dir
  | .rmovt x => Laws.RowMatch.rmovt x
  | .rmove d => Laws.RowMatch.rmove d
  | .radv d => Laws.RowMatch.radv d
  | .rstop => Laws.RowMatch.rstop
  | .ristop => Laws.RowMatch.ristop
  | .rgacc => Laws.RowMatch.rgacc
  | .rcomp => Laws.RowMatch.rcomp

theorem decode_ok_iff_matchesRow (w : Word) : (∃ i, decode w = .ok i) ↔ ∃ r ∈ opcodeTable, r.matchesWord w := by
  constructor
  · rintro ⟨i, hi⟩
    exact encode_of_decode hi ▸ encode_matchesRow i
  · rintro ⟨r, hr, hmatch⟩
    obtain ⟨hop, harg⟩ := hmatch.fields hr
    unfold decode
    rw [hop]
    exact opcodeTable_decodes r hr _ harg

theorem matchesRow_unique {w : Word} {r₁ r₂ : OpcodeRow} (hr₁ : r₁ ∈ opcodeTable) (hr₂ : r₂ ∈ opcodeTable)
    (h₁ : r₁.matchesWord w) (h₂ : r₂.matchesWord w) : r₁ = r₂ := by
  obtain ⟨hop₁, _⟩ := h₁.fields hr₁
  obtain ⟨hop₂, _⟩ := h₂.fields hr₂
  exact eq_of_opcodeOf_pattern r₁ hr₁ r₂ hr₂ (hop₁.symm.trans hop₂)

end Sys2Proof

namespace Sys2Proof.Machine

open Sys2Proof

theorem step_of_no_row {s : State} {c : Command} {rest : List Command} (hin : s.inbox = c :: rest)
    (h : ∀ r ∈ opcodeTable, ¬ r.matchesWord c.word) : step s = .next ((s.take c rest).raise .illegalCommand) := by
  rcases step_cases s c rest hin with ⟨i, hi, _⟩ | ⟨_, _, hstep⟩
  · obtain ⟨r, hr, hmatch⟩ := (decode_ok_iff_matchesRow c.word).1 ⟨i, hi⟩
    exact absurd hmatch (h r hr)
  · exact hstep

/-- Settles O3: legality by the table's rows, their exclusion by the opcodes, and the step on an illegal word. -/
theorem illegalWordsAreRefusedOnEveryPort : Obligations.IllegalWordsAreRefusedOnEveryPort :=
  ⟨decode_ok_iff_matchesRow, fun _ _ hr₁ _ hr₂ => matchesRow_unique hr₁ hr₂, fun _ _ _ => step_of_no_row⟩

end Sys2Proof.Machine
end

section
/-! The two kinds of response (R81, R221): a command is answered `OK`, or it raises a status and changes nothing. -/

namespace Sys2Proof.Machine

open Sys2Proof

/-- `t` is some state answered `OK`, or `s` itself with a raised status. -/
def OkOrRaised (s t : State) : Prop := (∃ u d, t = State.answer u d) ∨ ∃ st, t = s.raise st

theorem okOrRaised_answer (s u : State) (d : BitVec 32) : OkOrRaised s (u.answer d) := .inl ⟨u, d, rfl⟩

theorem okOrRaised_raise (s : State) (st : Status) : OkOrRaised s (s.raise st) := .inr ⟨st, rfl⟩

theorem OkOrRaised.ite {s t u : State} {p : Prop} [Decidable p] (ht : OkOrRaised s t) (hu : OkOrRaised s u) :
    OkOrRaised s (if p then t else u) := by
  split
  · exact ht
  · exact hu

theorem okOrRaised_onPort {i : Instr} {s t : State} {f : State → State} (h : s.onPort i f = .next t)
    (hf : OkOrRaised s (f s)) : OkOrRaised s t := by
  rcases s.onPort_cases i f t h with ⟨_, rfl⟩ | ⟨_, rfl⟩
  · exact hf
  · exact okOrRaised_raise s _

/-- The tests of a command (R224) choose between raising and answering; most commands have none but the port's. -/
theorem exec_okOrRaised {i : Instr} {s t : State} (h : exec i s = .next t) : OkOrRaised s t := by
  unfold exec at h
  cases i with
  | qpush =>
    exact okOrRaised_onPort h
      (.ite (okOrRaised_raise s _) (.ite (okOrRaised_raise s _) (.ite (okOrRaised_raise s _) (okOrRaised_answer s _ _))))
  | qack | pacc => exact okOrRaised_onPort h (.ite (okOrRaised_raise s _) (okOrRaised_answer s _ _))
  | qpop | pub | radv => exact okOrRaised_onPort h (.ite (okOrRaised_answer s _ _) (okOrRaised_answer s _ _))
  | pchk | rrun => exact okOrRaised_onPort h (.ite (okOrRaised_answer s _ _) (okOrRaised_raise s _))
  | rmovt | rmove =>
    exact okOrRaised_onPort h
      (.ite (.ite (okOrRaised_answer s _ _) (okOrRaised_answer s _ _)) (okOrRaised_raise s _))
  | _ => exact okOrRaised_onPort h (okOrRaised_answer s _ _)

theorem step_okOrRaised {s t : State} {c : Command} {rest : List Command} (hin : s.inbox = c :: rest)
    (h : step s = .next t) : OkOrRaised (s.take c rest) t := by
  rcases step_cases s c rest hin with ⟨i, _, hstep⟩ | ⟨_, _, hstep⟩
  · exact exec_okOrRaised (hstep.symm.trans h)
  · obtain rfl := Host.Outcome.next.inj (hstep.symm.trans h)
    exact okOrRaised_raise _ _

/-- Settles O7: `step_answers` gives the one response, and a status other than `OK` can only have been raised. -/
theorem everyCommandIsAnsweredOnce : Obligations.EveryCommandIsAnsweredOnce := by
  intro s c rest hin
  obtain ⟨t, ⟨port, st, d⟩, hstep, hinbox, hcfg, houtbox, rfl⟩ := step_answers hin
  refine ⟨t, st, d, hstep, hinbox, hcfg, houtbox, fun hst => ?_⟩
  rcases step_okOrRaised hin hstep with ⟨u, e, rfl⟩ | ⟨st', rfl⟩
  · obtain ⟨_, hresponse⟩ := List.append_inj' houtbox rfl
    obtain ⟨_, hok, _⟩ := Response.mk.inj (List.singleton_inj.1 hresponse)
    exact absurd hok.symm hst
  · obtain ⟨_, hresponse⟩ := List.append_inj' houtbox rfl
    obtain ⟨_, _, hzero⟩ := Response.mk.inj (List.singleton_inj.1 hresponse)
    exact ⟨hzero.symm, rfl, rfl, rfl, rfl, rfl, rfl⟩

end Sys2Proof.Machine
end

section
/-! The forward transform (R100, R101) as arithmetic: the code of `x` is `512 * e` plus the mantissa code of the 8 bits
below the leading one, and those 8 bits say between which two multiples of `2^e / 256` the input lies. -/

namespace Sys2Proof.Machine

open Sys2Proof

/-- The 8 bits of `x` below its leading one (R100), the index of the read of `FWD_TAB`. -/
def mantissaField (x : Nat) : Nat := x * 256 / 2 ^ Nat.log2 x % 256

theorem mantissaField_lt (x : Nat) : mantissaField x < 256 := Nat.mod_lt _ (by decide)

/-- Both branches of R100 read the same field: the dropped bits and the padding are the two signs of one shift. -/
theorem mantissaField_eq (x : Nat) :
    (if 8 ≤ msb x then x >>> (msb x - 8) % 256 else x <<< (8 - msb x) % 256) = mantissaField x := by
  unfold mantissaField msb
  split
  next he =>
    have hpow : 2 ^ Nat.log2 x = 2 ^ (Nat.log2 x - 8) * 256 := by
      rw [show 256 = 2 ^ 8 from rfl, ← pow_add, Nat.sub_add_cancel he]
    rw [Nat.shiftRight_eq_div_pow, hpow, Nat.mul_div_mul_right _ _ (by decide)]
  next he =>
    have hpow : 256 = 2 ^ (8 - Nat.log2 x) * 2 ^ Nat.log2 x := by
      rw [← pow_add, Nat.sub_add_cancel (Nat.le_of_not_le he)]
      rfl
    rw [Nat.shiftLeft_eq, congrArg (x * ·) hpow, ← Nat.mul_assoc, Nat.mul_div_cancel _ (Nat.two_pow_pos _)]

theorem mantissaField_bounds {x : Nat} (hx : x ≠ 0) :
    (256 + mantissaField x) * 2 ^ Nat.log2 x ≤ 256 * x ∧ 256 * x < (256 + mantissaField x + 1) * 2 ^ Nat.log2 x := by
  have hpos := Nat.two_pow_pos (Nat.log2 x)
  have hlo : 256 ≤ x * 256 / 2 ^ Nat.log2 x := by
    rw [Nat.le_div_iff_mul_le hpos, Nat.mul_comm]
    exact Nat.mul_le_mul_right _ (Nat.log2_self_le hx)
  have hhi : x * 256 / 2 ^ Nat.log2 x < 512 := by
    have := Nat.lt_log2_self (n := x)
    rw [Nat.div_lt_iff_lt_mul hpos]
    omega
  have hfield : 256 + mantissaField x = x * 256 / 2 ^ Nat.log2 x := by unfold mantissaField; omega
  rw [hfield, Nat.mul_comm 256 x]
  exact ⟨Nat.div_mul_le_self _ _, Nat.lt_mul_of_div_lt (Nat.lt_succ_self _) hpos⟩

theorem mantissaField_two_pow (n : Nat) : mantissaField (2 ^ n) = 0 := by
  rw [mantissaField, Nat.log2_two_pow, Nat.mul_div_cancel_left _ (Nat.two_pow_pos n)]

/-- The code of a positive `x` (R100), before it is put into 16 bits. -/
def forwardCode (c : Config) (x : Nat) : Nat := 512 * Nat.log2 x + c.fwdCode (mantissaField x)

theorem logFrom_of_ne_zero (c : Config) {x : Nat} (hx : x ≠ 0) : logFrom c x = wrap16 (forwardCode c x) := by
  rw [logFrom, if_neg hx]
  dsimp only
  rw [mantissaField_eq, msb, forwardCode, Config.fwdCode, Nat.mul_comm _ 512, Nat.add_assoc]

/-! ## The commands (R110 to R112) -/

/-- Format L of a code that is not negative (R92). -/
theorem fmtL_wrap16 {n : Nat} (hn : n < 2 ^ 16) : fmtL (wrap16 n) = BitVec.ofNat 32 n := by
  apply BitVec.eq_of_toNat_eq
  rw [fmtL, wrap16, BitVec.ofInt_natCast, BitVec.toNat_append, BitVec.toNat_ofNat, BitVec.toNat_ofNat]
  simp
  omega

/-- The tables need not be admissible: no entry is above 255, so no code leaves 16 bits. -/
theorem isForwardCode_logFrom (c : Config) {x : Nat} (hx : x < 2 ^ 32) : IsForwardCode c x (fmtL (logFrom c x)) := by
  refine ⟨fun h => by rw [h, logFrom_zero]; decide, fun e hlo hhi => ?_⟩
  have hne : x ≠ 0 := (Nat.lt_of_lt_of_le (Nat.two_pow_pos e) hlo).ne'
  have he : Nat.log2 x = e := (Nat.log2_eq_iff hne).2 ⟨hlo, hhi⟩
  have he32 : Nat.log2 x < 32 := (Nat.log2_lt hne).2 hx
  have hf := mantissaField_lt x
  have hread := (c.fwdRead (BitVec.ofNat 8 (mantissaField x))).isLt
  rw [logFrom_of_ne_zero c hne, fmtL_wrap16 (by unfold forwardCode Config.fwdCode; omega), forwardCode,
    Config.fwdCode, mantissaField, he, Nat.add_assoc]

theorem encode_lfrom8 (x : BitVec 8) : encode (.lfrom8 x) = 0x01#8 ++ 0#24 ++ x := by
  rw [BitVec.append_assoc]
  rfl

theorem encode_lfrom16 (x : BitVec 16) : encode (.lfrom16 x) = 0x02#8 ++ 0#16 ++ x := by
  rw [BitVec.append_assoc]
  rfl

theorem exec_lfrom8 (s : State) (x : BitVec 8) :
    exec (.lfrom8 x) s = .next (s.answer (fmtL (logFrom s.cfg x.toNat))) := rfl

theorem exec_lfrom16 (s : State) (x : BitVec 16) :
    exec (.lfrom16 x) s = .next (s.answer (fmtL (logFrom s.cfg x.toNat))) := rfl

theorem exec_lfrom32 (s : State) (x : U32) :
    exec (.lfrom32 x) s = .next (s.answer (fmtL (logFrom s.cfg x.toNat))) := rfl

/-- Settles O14: the three widths are one function, whose arguments are all below `2^32`. -/
theorem forwardConversionsAnswerTheCode : Obligations.ForwardConversionsAnswerTheCode := fun s =>
  ⟨fun x => ⟨decode_of_encode (encode_lfrom8 x), _, exec_lfrom8 s x,
      isForwardCode_logFrom _ (x.isLt.trans (by decide))⟩,
    fun x => ⟨decode_of_encode (encode_lfrom16 x), _, exec_lfrom16 s x,
      isForwardCode_logFrom _ (x.isLt.trans (by decide))⟩,
    fun x => ⟨decode_of_encode rfl, _, exec_lfrom32 s x, isForwardCode_logFrom _ x.isLt⟩⟩

end Sys2Proof.Machine
end

section
/-! The table contract T1 to T3 (R108), and with it the properties (a) to (f) of the forward transform (R101). -/

namespace Sys2Proof.Machine

open Sys2Proof

/-- T1 to T3 of R108 as propositions. -/
structure TableContract (c : Config) : Prop where
  fwd_zero : c.fwdRead 0 = 0
  inv_zero : c.invRead 0 = 0
  fwd_rises : ∀ f < 255, c.fwdCode f < c.fwdCode (f + 1)
  fwd_last : c.fwdCode 255 ≤ 511
  inv_rises : ∀ k < 511, c.invMantissa k ≤ c.invMantissa (k + 1)
  inv_first : 1024 ≤ c.invMantissa 0
  inv_last : c.invMantissa 511 ≤ 2047

theorem wf_iff_tableContract (c : Config) :
    c.wf = true ↔ c.queueLenOk = true ∧ c.tickHzOk = true ∧ TableContract c := by
  simp only [Config.wf, Config.tableT1, Config.tableT2, Config.tableT3, Bool.and_eq_true, List.all_eq_true,
    List.mem_range, decide_eq_true_eq]
  constructor
  · rintro ⟨⟨⟨⟨hq, ht⟩, hf0, hi0⟩, hf, hf255⟩, ⟨hi, hi1024⟩, hi2047⟩
    exact ⟨hq, ht, hf0, hi0, hf, hf255, hi, hi1024, hi2047⟩
  · rintro ⟨hq, ht, h⟩
    exact ⟨⟨⟨⟨hq, ht⟩, h.fwd_zero, h.inv_zero⟩, h.fwd_rises, h.fwd_last⟩, ⟨h.inv_rises, h.inv_first⟩, h.inv_last⟩

theorem tableContract_of_wf {c : Config} (hc : c.wf = true) : TableContract c := ((wf_iff_tableContract c).1 hc).2.2

theorem TableContract.fwdCode_zero {c : Config} (h : TableContract c) : c.fwdCode 0 = 0 := by
  simpa [Config.fwdCode] using congrArg BitVec.toNat h.fwd_zero

theorem TableContract.fwdCode_strictMonoOn {c : Config} (h : TableContract c) :
    StrictMonoOn c.fwdCode (Set.Iic 255) :=
  strictMonoOn_of_lt_add_one Set.ordConnected_Iic fun f _ _ hf => h.fwd_rises f hf

/-! ## The order of the codes (R101(e)) -/

theorem mantissaField_mono {x y : Nat} (hx : x ≠ 0) (hxy : x ≤ y) (he : Nat.log2 x = Nat.log2 y) :
    mantissaField x ≤ mantissaField y := by
  have hlo := (mantissaField_bounds hx).1
  have hhi := (mantissaField_bounds (x := y) (by omega)).2
  rw [he] at hlo
  have hlt := Nat.lt_of_mul_lt_mul_right (hlo.trans_lt ((Nat.mul_le_mul_left 256 hxy).trans_lt hhi))
  omega

/-- Below 512 no bit of `x` is dropped (R101(e)). -/
theorem mantissaField_exact {x : Nat} (hx : x ≠ 0) (he : Nat.log2 x ≤ 8) :
    (256 + mantissaField x) * 2 ^ Nat.log2 x = 256 * x := by
  obtain ⟨hlo, hhi⟩ := mantissaField_bounds hx
  obtain ⟨w, hw⟩ : 2 ^ Nat.log2 x ∣ 256 * x := Dvd.dvd.mul_right (Nat.pow_dvd_pow 2 he) x
  rw [hw, Nat.mul_comm (2 ^ Nat.log2 x)] at hlo hhi ⊢
  have hle := Nat.le_of_mul_le_mul_right hlo (Nat.two_pow_pos _)
  have hlt := Nat.lt_of_mul_lt_mul_right hhi
  rw [show w = 256 + mantissaField x by omega]

theorem log2_mono {x y : Nat} (hx : x ≠ 0) (hxy : x ≤ y) : Nat.log2 x ≤ Nat.log2 y :=
  (Nat.le_log2 (by omega)).2 ((Nat.log2_self_le hx).trans hxy)

section
variable {c : Config} (hc : c.wf = true) {x y : Nat} (hx : x ≠ 0)
include hc

theorem forwardCode_bounds (x : Nat) :
    512 * Nat.log2 x ≤ forwardCode c x ∧ forwardCode c x < 512 * (Nat.log2 x + 1) := by
  have hcode := fwdCode_le hc (Nat.le_of_lt_succ (mantissaField_lt x))
  unfold forwardCode
  omega

include hx

theorem forwardCode_mono (hxy : x ≤ y) : forwardCode c x ≤ forwardCode c y := by
  rcases (log2_mono hx hxy).lt_or_eq with he | he
  · have hbx := (forwardCode_bounds hc x).2
    have hby := (forwardCode_bounds hc y).1
    omega
  · unfold forwardCode
    rw [he]
    exact Nat.add_le_add_left ((tableContract_of_wf hc).fwdCode_strictMonoOn.monotoneOn
      (Nat.le_of_lt_succ (mantissaField_lt x)) (Nat.le_of_lt_succ (mantissaField_lt y))
      (mantissaField_mono hx hxy he)) _

theorem forwardCode_lt (hxy : x < y) (hy : y ≤ 511) : forwardCode c x < forwardCode c y := by
  have hey : Nat.log2 y < 9 := (Nat.log2_lt (by omega)).2 (by omega)
  rcases (log2_mono hx hxy.le).lt_or_eq with he | he
  · have hbx := (forwardCode_bounds hc x).2
    have hby := (forwardCode_bounds hc y).1
    omega
  · have hex := mantissaField_exact hx (by omega)
    have hey := mantissaField_exact (x := y) (by omega) (by omega)
    rw [he] at hex
    have hfield : mantissaField x < mantissaField y := by
      have hlt := Nat.lt_of_mul_lt_mul_right (a := 2 ^ Nat.log2 y) (hex.trans_lt (by rw [hey]; omega))
      omega
    unfold forwardCode
    rw [he]
    exact Nat.add_lt_add_left ((tableContract_of_wf hc).fwdCode_strictMonoOn
      (Nat.le_of_lt_succ (mantissaField_lt x)) (Nat.le_of_lt_succ (mantissaField_lt y)) hfield) _

theorem logFrom_toInt (hx32 : x < 2 ^ 32) : (logFrom c x).toInt = forwardCode c x := by
  have he : Nat.log2 x < 32 := (Nat.log2_lt hx).2 hx32
  have hb := (forwardCode_bounds hc x).2
  rw [logFrom_of_ne_zero c hx, wrap16_toInt_of_range] <;> omega

end

/-- `from(2^n) = 512 * n` (R101(c)). -/
theorem forwardCode_two_pow {c : Config} (hc : c.wf = true) (n : Nat) : forwardCode c (2 ^ n) = 512 * n := by
  rw [forwardCode, mantissaField_two_pow, Nat.log2_two_pow, (tableContract_of_wf hc).fwdCode_zero, Nat.add_zero]

theorem logFrom_two_pow {c : Config} (hc : c.wf = true) {n : Nat} (hn : n < 32) :
    (logFrom c (2 ^ n)).toInt = 512 * (n : Int) := by
  rw [logFrom_toInt hc (Nat.two_pow_pos n).ne' (Nat.pow_lt_pow_right (by decide) hn), forwardCode_two_pow hc]
  norm_cast

/-! ## The number of codes (R101(f)) -/

theorem logFrom_eq_of_field_eq (c : Config) {x y : Nat} (hx : x ≠ 0) (hy : y ≠ 0) (he : Nat.log2 x = Nat.log2 y)
    (hf : mantissaField x = mantissaField y) : logFrom c x = logFrom c y := by
  rw [logFrom_of_ne_zero c hx, logFrom_of_ne_zero c hy, forwardCode, forwardCode, he, hf]

/-- The codes of all pairs of an exponent and a field. -/
def codesOfFields (c : Config) : Finset LogValue :=
  (Finset.range 32 ×ˢ Finset.range 256).image fun p => wrap16 ((512 * p.1 + c.fwdCode p.2 : Nat) : Int)

theorem codesOfFields_card (c : Config) : (codesOfFields c).card ≤ 32 * 256 :=
  Finset.card_image_le.trans (by simp)

theorem logFrom_mem_codesOfFields (c : Config) {x : Nat} (hx : x ≠ 0) (hx32 : x < 2 ^ 32) :
    logFrom c x ∈ codesOfFields c :=
  Finset.mem_image.2 ⟨(Nat.log2 x, mantissaField x),
    by simp [(Nat.log2_lt hx).2 hx32, mantissaField_lt], (logFrom_of_ne_zero c hx).symm⟩

theorem toNat_ne_zero {w : Nat} {x : BitVec w} (hx : x ≠ 0) : x.toNat ≠ 0 := by
  simpa [BitVec.toNat_eq] using hx

theorem fromU32_eq_logInvalid_iff {c : Config} (hc : c.wf = true) (x : U32) :
    fromU32 c x = Config.logInvalid ↔ x = 0 := by
  refine ⟨fun h => ?_, fun h => by rw [h]; rfl⟩
  by_contra hx
  have hrange := (fromU32_range hc (toNat_ne_zero hx) x.isLt le_rfl).1
  rw [h] at hrange
  exact absurd hrange (by decide)

/-- Settles O16: clause by clause from the order of `forwardCode`; the sentinel lies below every code. -/
theorem forwardTransformProperties : Obligations.ForwardTransformProperties := by
  intro c hc
  refine ⟨fromU32_eq_logInvalid_iff hc, ?one, fun n hn => ?powers, fun x hx => ?range, fun x y hxy => ?mono,
    fun x y hx hxy hy => ?strict, fun x y hx hy => ?field, ?card⟩
  case one =>
    rw [← BitVec.toInt_inj]
    exact logFrom_two_pow hc (n := 0) (by decide)
  case powers =>
    have hpow : 2 ^ n < 2 ^ 32 := Nat.pow_lt_pow_right (by decide) (by omega)
    rw [fromU32, zext, BitVec.toNat_ofNat, Nat.mod_eq_of_lt hpow]
    exact logFrom_two_pow hc (by omega)
  case range =>
    obtain ⟨hlo, hhi⟩ := fromU32_range hc (toNat_ne_zero hx) x.isLt le_rfl
    omega
  case mono =>
    by_cases hx : x = 0
    · rw [(fromU32_eq_logInvalid_iff hc x).2 hx]
      exact BitVec.le_toInt _
    · have hx' := toNat_ne_zero hx
      rw [fromU32, fromU32, zext, zext, logFrom_toInt hc hx' x.isLt, logFrom_toInt hc (by omega) y.isLt]
      exact_mod_cast forwardCode_mono hc hx' hxy.le
  case strict =>
    rw [fromU32, fromU32, zext, zext, logFrom_toInt hc (by omega) x.isLt, logFrom_toInt hc (by omega) y.isLt]
    exact_mod_cast forwardCode_lt hc (by omega) hxy hy
  case field => exact logFrom_eq_of_field_eq c (toNat_ne_zero hx) (toNat_ne_zero hy)
  case card =>
    have hsub : {v : LogValue | ∃ x : U32, x ≠ 0 ∧ fromU32 c x = v} ⊆ codesOfFields c := by
      rintro _ ⟨x, hx, rfl⟩
      exact logFrom_mem_codesOfFields c (toNat_ne_zero hx) x.isLt
    calc _ ≤ (codesOfFields c : Set LogValue).ncard := Set.ncard_le_ncard hsub
      _ = (codesOfFields c).card := Set.ncard_coe_finset _
      _ ≤ 32 * 256 := codesOfFields_card c

end Sys2Proof.Machine
end

section
/-! The inverse transform (R104, R105) as arithmetic: above its low saturation a code is `512 * k + frac - 512`, and its
integer is the mantissa of `frac` times `2 ^ k / 2048`, rounded half up. -/

namespace Sys2Proof.Machine

open Sys2Proof

/-- The mantissa `m`, ten fraction bits, shifted by the exponent `k - 1` and rounded half up (R104). -/
def halfUp (m k : Nat) : Nat := (m * 2 ^ k + 1024) / 2048

theorem two_pow_eq_mul_2048 {k : Nat} (hk : 11 ≤ k) : 2 ^ k = 2 ^ (k - 11) * 2048 := by
  rw [show 2048 = 2 ^ 11 from rfl, ← pow_add, Nat.sub_add_cancel hk]

/-- A shift to the left by `e - 10` rounds nothing. -/
theorem halfUp_shiftLeft {m k : Nat} (hk : 11 ≤ k) : halfUp m k = m <<< (k - 11) := by
  rw [halfUp, two_pow_eq_mul_2048 hk, Nat.shiftLeft_eq, ← Nat.mul_assoc]
  omega

/-- A shift to the right by `10 - e` rounds half up. -/
theorem halfUp_shiftRight {m k : Nat} (hk : k ≤ 10) : halfUp m k = (m + 1 <<< (10 - k)) >>> (11 - k) := by
  have hpow : 2 ^ (11 - k) * 2 ^ k = 2048 := by rw [← pow_add, Nat.sub_add_cancel (by omega)]; rfl
  have hhalf : 2 ^ (10 - k) * 2 ^ k = 1024 := by rw [← pow_add, Nat.sub_add_cancel hk]; rfl
  rw [Nat.shiftRight_eq_div_pow, Nat.one_shiftLeft, ← Nat.mul_div_mul_right _ _ (Nat.two_pow_pos k), hpow, Nat.add_mul,
    hhalf, halfUp]

theorem halfUp_mono {m m' k k' : Nat} (h : m * 2 ^ k ≤ m' * 2 ^ k') : halfUp m k ≤ halfUp m' k' :=
  Nat.div_le_div_right (Nat.add_le_add_right h _)

theorem halfUp_le {m k n : Nat} (hm : m ≤ 2047) (hk : k ≤ n) (hn : 11 ≤ n) : halfUp m k ≤ 2047 * 2 ^ (n - 11) := by
  rw [← Nat.shiftLeft_eq, ← halfUp_shiftLeft hn]
  exact halfUp_mono (Nat.mul_le_mul hm (Nat.pow_le_pow_right (by decide) hk))

/-- The integer of a power of two. -/
theorem halfUp_1024 (n : Nat) : halfUp 1024 (n + 1) = 2 ^ n := by
  rw [halfUp, Nat.pow_succ]
  omega

/-! ## The codes -/

theorem code_cases (v : LogValue) :
    v.toInt < -512 ∨ ∃ k frac : Nat, frac < 512 ∧ v.toInt = 512 * (k : Int) + frac - 512 := by
  by_cases h : v.toInt < -512
  · exact .inl h
  · exact .inr ⟨((v.toInt + 512) / 512).toNat, (v.toInt % 512).toNat, by omega⟩

theorem logTo_low (c : Config) (n : Nat) {v : LogValue} (h : v.toInt < -512) : logTo c n v = 0 := by
  unfold logTo sext
  dsimp only
  rw [if_neg (by omega), if_neg (by omega), if_pos (by omega)]

section
variable (c : Config) {n k frac : Nat} {v : LogValue} (hv : v.toInt = 512 * (k : Int) + frac - 512) (hfrac : frac < 512)
include hv hfrac

theorem logTo_code (hk : k ≤ n) : logTo c n v = halfUp (c.invMantissa frac) k := by
  have hexp : v.toInt / 512 = (k : Int) - 1 := by omega
  have hmod : (v.toInt % 512).toNat = frac := by omega
  unfold logTo sext
  dsimp only
  rw [if_neg (by omega), hexp, hmod, Nat.shiftRight_eq_div_pow, ← Config.invMantissa]
  split
  next h => rw [halfUp_shiftLeft (by omega), show ((k : Int) - 1 - 10).toNat = k - 11 by omega]
  next h =>
    rw [if_neg (by omega), halfUp_shiftRight (by omega), show (9 - ((k : Int) - 1)).toNat = 10 - k by omega,
      show (10 - ((k : Int) - 1)).toNat = 11 - k by omega]

end

theorem invMantissa_le (c : Config) {frac : Nat} (h : frac < 512) : c.invMantissa frac ≤ 2047 := by
  unfold Config.invMantissa
  omega

/-- Below the high saturation the formula itself stays in `n` bits (R105(e)), with any tables. -/
theorem logTo_le (c : Config) {n : Nat} (hn : 11 ≤ n) {v : LogValue} (hv : v.toInt < 512 * (n : Int)) :
    logTo c n v ≤ 2047 * 2 ^ (n - 11) := by
  rcases code_cases v with hlow | ⟨k, frac, hfrac, hcode⟩
  · rw [logTo_low c n hlow]
    exact Nat.zero_le _
  · rw [logTo_code c hcode hfrac (by omega)]
    exact halfUp_le (invMantissa_le c hfrac) (by omega) hn

theorem logTo_lt (c : Config) {n : Nat} (hn : 11 ≤ n) (v : LogValue) : logTo c n v < 2 ^ n := by
  have hpow := two_pow_eq_mul_2048 hn
  have hpos := Nat.two_pow_pos (n - 11)
  by_cases hv : v.toInt < 512 * (n : Int)
  · have hle := logTo_le c hn hv
    omega
  · rw [logTo_high c n v (by omega)]
    omega

theorem toU16_toNat (c : Config) (v : LogValue) : (toU16 c v).toNat = logTo c 16 v := by
  rw [toU16, BitVec.toNat_ofNat, Nat.mod_eq_of_lt (logTo_lt c (by decide) v)]

theorem toU32_toNat (c : Config) (v : LogValue) : (toU32 c v).toNat = logTo c 32 v := by
  rw [toU32, BitVec.toNat_ofNat, Nat.mod_eq_of_lt (logTo_lt c (by decide) v)]

/-! ## The commands (R113, R114) -/

theorem isInverseValue_logTo (c : Config) (n : Nat) (v : LogValue) :
    IsInverseValue c n v (BitVec.ofNat 32 (logTo c n v)) := by
  refine ⟨fun h => by rw [logTo_high c n v h], fun h => by rw [logTo_low c n h]; rfl, fun hlo hhi => ?_⟩
  rcases code_cases v with hlow | ⟨k, frac, hfrac, hcode⟩
  · omega
  · rw [logTo_code c hcode hfrac (by omega), show (v.toInt % 512).toNat = frac by omega,
      show ((v.toInt + 512) / 512).toNat = k by omega, halfUp]

theorem fmtU16_toU16 (c : Config) (v : LogValue) : fmtU16 (toU16 c v) = BitVec.ofNat 32 (logTo c 16 v) := by
  have hlt := logTo_lt c (n := 16) (by decide) v
  apply BitVec.eq_of_toNat_eq
  rw [fmtU16, BitVec.toNat_append, toU16_toNat, BitVec.toNat_ofNat (logTo c 16 v),
    Nat.mod_eq_of_lt (hlt.trans (by decide))]
  simp

theorem encode_lto16 (v : LogValue) : encode (.lto16 v) = 0x04#8 ++ 0#16 ++ v := by
  rw [BitVec.append_assoc]
  rfl

theorem encode_lto32 (v : LogValue) : encode (.lto32 v) = 0x05#8 ++ 0#16 ++ v := by
  rw [BitVec.append_assoc]
  rfl

theorem exec_lto16 (s : State) (v : LogValue) :
    exec (.lto16 v) s = .next (s.answer (fmtU16 (toU16 s.cfg v))) := rfl

theorem exec_lto32 (s : State) (v : LogValue) :
    exec (.lto32 v) s = .next (s.answer (BitVec.ofNat 32 (logTo s.cfg 32 v))) := rfl

/-- Settles O15: both widths answer `logTo`, whose three ranges are `logTo_high`, `logTo_low` and `logTo_code`. -/
theorem inverseConversionsAnswerTheInteger : Obligations.InverseConversionsAnswerTheInteger := fun s v =>
  ⟨decode_of_encode (encode_lto16 v), decode_of_encode (encode_lto32 v),
    ⟨_, exec_lto16 s v, fmtU16_toU16 s.cfg v ▸ isInverseValue_logTo s.cfg 16 v⟩,
    ⟨_, exec_lto32 s v, isInverseValue_logTo s.cfg 32 v⟩⟩

/-! ## The properties (R105) -/

theorem TableContract.invMantissa_zero {c : Config} (h : TableContract c) : c.invMantissa 0 = 1024 := by
  have hle : c.invMantissa 0 ≤ 1024 := Nat.sub_le _ _
  exact Nat.le_antisymm hle h.inv_first

theorem TableContract.invMantissa_monotoneOn {c : Config} (h : TableContract c) :
    MonotoneOn c.invMantissa (Set.Iic 511) :=
  monotoneOn_of_le_add_one Set.ordConnected_Iic fun k _ _ hk => h.inv_rises k hk

theorem TableContract.le_invMantissa {c : Config} (h : TableContract c) {frac : Nat} (hfrac : frac < 512) :
    1024 ≤ c.invMantissa frac :=
  h.inv_first.trans (h.invMantissa_monotoneOn (by simp) (Nat.le_of_lt_succ hfrac) (Nat.zero_le frac))

section
variable {c : Config} (hc : c.wf = true) {n : Nat}
include hc

theorem logTo_eq_zero_iff (hn : n ≠ 0) (v : LogValue) : logTo c n v = 0 ↔ v.toInt < -512 := by
  refine ⟨fun h => ?_, logTo_low c n⟩
  rcases code_cases v with hlow | ⟨k, frac, hfrac, hcode⟩
  · exact hlow
  by_cases hk : k ≤ n
  · have hm := (tableContract_of_wf hc).le_invMantissa hfrac
    have hpos : 1 ≤ halfUp (c.invMantissa frac) k :=
      (halfUp_mono (m := 1024) (k := 0) (Nat.mul_le_mul hm Nat.one_le_two_pow))
    rw [logTo_code c hcode hfrac hk] at h
    omega
  · have hpow : 2 ^ 1 ≤ 2 ^ n := Nat.pow_le_pow_right (by decide) (by omega)
    rw [logTo_high c n v (by omega)] at h
    omega

theorem logTo_two_pow {v : LogValue} {k : Nat} (hk : k < n) (hv : v.toInt = 512 * (k : Int)) : logTo c n v = 2 ^ k := by
  rw [logTo_code c (k := k + 1) (frac := 0) (by omega) (by decide) hk, (tableContract_of_wf hc).invMantissa_zero,
    halfUp_1024]

theorem logTo_eq_one (hn : n ≠ 0) {v : LogValue} (hlo : -512 ≤ v.toInt) (hhi : v.toInt ≤ 0) : logTo c n v = 1 := by
  rcases hhi.lt_or_eq with hneg | hzero
  · rcases code_cases v with hlow | ⟨k, frac, hfrac, hcode⟩
    · omega
    · obtain rfl : k = 0 := by omega
      have hm := (tableContract_of_wf hc).le_invMantissa hfrac
      have hm' := invMantissa_le c hfrac
      rw [logTo_code c hcode hfrac (Nat.zero_le n), halfUp]
      omega
  · exact logTo_two_pow hc (Nat.pos_of_ne_zero hn) hzero

theorem logTo_mono (hn : 11 ≤ n) {v w : LogValue} (hvw : v.toInt ≤ w.toInt) : logTo c n v ≤ logTo c n w := by
  by_cases hw : 512 * (n : Int) ≤ w.toInt
  · have hlt := logTo_lt c hn v
    rw [logTo_high c n w hw]
    omega
  rcases code_cases v with hlow | ⟨k, frac, hfrac, hcode⟩
  · rw [logTo_low c n hlow]
    exact Nat.zero_le _
  rcases code_cases w with hlow | ⟨k', frac', hfrac', hcode'⟩
  · omega
  rw [logTo_code c hcode hfrac (by omega), logTo_code c hcode' hfrac' (by omega)]
  apply halfUp_mono
  rcases (show k ≤ k' by omega).eq_or_lt with rfl | hk
  · exact Nat.mul_le_mul_right _ ((tableContract_of_wf hc).invMantissa_monotoneOn (Nat.le_of_lt_succ hfrac)
      (Nat.le_of_lt_succ hfrac') (by omega))
  · calc c.invMantissa frac * 2 ^ k ≤ (1024 * 2) * 2 ^ k :=
        Nat.mul_le_mul_right _ ((invMantissa_le c hfrac).trans (by decide))
      _ = 1024 * 2 ^ (k + 1) := by rw [Nat.pow_succ]; ring
      _ ≤ c.invMantissa frac' * 2 ^ k' :=
        Nat.mul_le_mul ((tableContract_of_wf hc).le_invMantissa hfrac') (Nat.pow_le_pow_right (by decide) hk)

end

/-- The two widths differ in their saturation only (R105(f)). -/
theorem logTo_width (c : Config) {v : LogValue} {n n' : Nat} (hn : n ≤ n') (hv : v.toInt < 512 * (n : Int)) :
    logTo c n v = logTo c n' v := by
  rcases code_cases v with hlow | ⟨k, frac, hfrac, hcode⟩
  · rw [logTo_low c n hlow, logTo_low c n' hlow]
  · rw [logTo_code c hcode hfrac (by omega), logTo_code c hcode hfrac (by omega)]

theorem exponentCode_toInt {n : Nat} (hn : n < 32) : (BitVec.ofNat 16 (512 * n)).toInt = 512 * (n : Int) := by
  rw [BitVec.toInt_ofNat', Int.bmod_eq_of_le] <;> omega

/-- Settles O17: each clause is one of the facts about `logTo`, at the widths 16 and 32. -/
theorem inverseTransformProperties : Obligations.InverseTransformProperties := by
  intro c hc
  simp only [← BitVec.toNat_inj (x := toU16 _ _), ← BitVec.toNat_inj (x := toU32 _ _), toU16_toNat, toU32_toNat]
  refine ⟨⟨logTo_low c 16 (by decide), logTo_low c 32 (by decide)⟩,
    fun v => ⟨logTo_eq_zero_iff hc (by decide) v, logTo_eq_zero_iff hc (by decide) v⟩,
    fun v hlo hhi => ⟨logTo_eq_one hc (by decide) hlo hhi, logTo_eq_one hc (by decide) hlo hhi⟩,
    fun n hn => logTo_two_pow hc hn (exponentCode_toInt (by omega)),
    fun n hn => logTo_two_pow hc hn (exponentCode_toInt hn),
    fun v hv => logTo_high c 16 v hv, fun v hv => logTo_le c (by decide) hv,
    fun v hv => logTo_high c 32 v hv, fun v hv => logTo_le c (by decide) hv,
    fun v hv => logTo_width c (by decide) hv,
    fun v w hvw => ⟨logTo_mono hc (by decide) hvw, logTo_mono hc (by decide) hvw⟩⟩

end Sys2Proof.Machine
end

section
/-! The round trip (R107): `to(from(x))` depends on the exponent `e` of `x`, on the field below its leading one and on
the mantissa that the two tables make of that field. The bounds need three facts about that mantissa `m` of `g = 256 + f`:
`4 * g ≤ m`, `m ≤ 4 * g + 3`, and `m ≤ 4 * g + 1` for `g` below 261. -/

namespace Sys2Proof.Machine

open Sys2Proof

/-- The mantissa that the inverse transform makes of the code of the field `f`. -/
def roundTripMantissa (c : Config) (f : Nat) : Nat := c.invMantissa (c.fwdCode f)

/-- `to(from(x))` for a positive `x`, of whatever width. -/
def roundTrip (c : Config) (x : Nat) : Nat := halfUp (roundTripMantissa c (mantissaField x)) (Nat.log2 x + 1)

theorem logTo_logFrom {c : Config} (hc : c.wf = true) {n x : Nat} (hn : n ≤ 32) (hx : x ≠ 0) (hxn : x < 2 ^ n) :
    logTo c n (logFrom c x) = roundTrip c x := by
  have hcode := fwdCode_le hc (Nat.le_of_lt_succ (mantissaField_lt x))
  have hint := logFrom_toInt hc hx (hxn.trans_le (Nat.pow_le_pow_right (by decide) hn))
  rw [forwardCode] at hint
  exact logTo_code c (by omega) (by omega) ((Nat.log2_lt hx).2 hxn)

theorem roundTrip_two_pow {c : Config} (hc : c.wf = true) (n : Nat) : roundTrip c (2 ^ n) = 2 ^ n := by
  have h := tableContract_of_wf hc
  rw [roundTrip, roundTripMantissa, mantissaField_two_pow, Nat.log2_two_pow, h.fwdCode_zero, h.invMantissa_zero,
    halfUp_1024]

/-! ## The bounds, for an input `x` between `g * 2^e / 256` and `(g + 1) * 2^e / 256` -/

theorem halfUp_succ (m e : Nat) : halfUp m (e + 1) = (m * 2 ^ e * 2 + 1024) / 2048 := by
  rw [halfUp, Nat.pow_succ, Nat.mul_assoc]

section
variable {x e g m : Nat}

/-- Where the input has no bit below the field and the error of `m` is less than half a unit, the trip is exact. -/
theorem halfUp_eq_of_exact {d : Nat} (hexact : g * 2 ^ e = 256 * x) (hlo : 4 * g ≤ m) (hhi : m ≤ 4 * g + d)
    (hd : d * 2 ^ e < 512) : halfUp m (e + 1) = x := by
  have hlower := Nat.mul_le_mul_right (2 ^ e) hlo
  have hupper := Nat.mul_le_mul_right (2 ^ e) hhi
  rw [Nat.mul_assoc] at hlower
  rw [Nat.add_mul, Nat.mul_assoc] at hupper
  rw [halfUp_succ]
  omega

/-- The worst error upward is that of 261, one unit. -/
theorem halfUp_upper (hlow : g * 2 ^ e ≤ 256 * x) (hg : 256 ≤ g) (hhi : m ≤ 4 * g + 3)
    (hhi' : g < 261 → m ≤ 4 * g + 1) : 261 * halfUp m (e + 1) ≤ 262 * x := by
  rw [halfUp_succ]
  rcases Nat.lt_or_ge e 8 with he | he
  · have hpow : 2 ^ e ≤ 2 ^ 7 := Nat.pow_le_pow_right (by decide) (by omega)
    have hm := Nat.mul_le_mul_right (2 ^ e) hhi
    rw [Nat.add_mul, Nat.mul_assoc] at hm
    omega
  have hpow : 2 ^ 8 ≤ 2 ^ e := Nat.pow_le_pow_right (by decide) he
  rcases Nat.lt_or_ge g 261 with hg' | hg'
  · have hm := Nat.mul_le_mul_right (2 ^ e) (hhi' hg')
    have hge := Nat.mul_le_mul_right (2 ^ e) hg
    rw [Nat.add_mul, Nat.mul_assoc] at hm
    omega
  · have hm := Nat.mul_le_mul_right (2 ^ e) hhi
    have hge := Nat.mul_le_mul_right (2 ^ e) hg'
    rw [Nat.add_mul, Nat.mul_assoc] at hm
    rcases Nat.lt_or_ge ((m * 2 ^ e * 2 + 1024) / 2048) (x + 2) with hr | hr <;> omega

/-- The worst error downward is that of the greatest `x` with `g = 256` and the greatest exponent; up to `e = 8` there
is none. -/
theorem halfUp_lower {K : Nat} (hK : 1 ≤ K) (he : 2 ^ e ≤ 256 * K) (hhigh : 256 * x < (g + 1) * 2 ^ e) (hg : 256 ≤ g)
    (hlo : 4 * g ≤ m) : 256 * K * x + halfUp m (e + 1) ≤ 257 * K * halfUp m (e + 1) := by
  rcases Nat.lt_or_ge e 9 with he' | he'
  · obtain ⟨w, hw⟩ : 2 ^ e ∣ 256 * x := Dvd.dvd.mul_right (Nat.pow_dvd_pow 2 (by omega : e ≤ 8)) x
    have hwg : w < g + 1 := Nat.lt_of_mul_lt_mul_left (a := 2 ^ e) (by rwa [← hw, Nat.mul_comm (2 ^ e)])
    have hm := Nat.mul_le_mul_left (2 ^ e) (show 4 * w ≤ m by omega)
    rw [Nat.mul_left_comm, ← hw, Nat.mul_comm _ m] at hm
    have hx : x ≤ halfUp m (e + 1) := by
      rw [halfUp_succ]
      omega
    have hKx := Nat.mul_le_mul_left (256 * K) hx
    have hr := Nat.le_mul_of_pos_left (halfUp m (e + 1)) hK
    linarith
  · obtain ⟨q, hq⟩ : 2 ^ 9 ∣ 2 ^ e := Nat.pow_dvd_pow 2 he'
    obtain ⟨f, rfl⟩ := Nat.exists_eq_add_of_le hg
    have hm := Nat.mul_le_mul_right q hlo
    obtain ⟨d, hd⟩ : ∃ d, halfUp m (e + 1) = 2 * ((256 + f) * q) + d := by
      refine Nat.exists_eq_add_of_le ?_
      rw [halfUp_succ, hq, Nat.mul_left_comm m]
      rw [Nat.mul_assoc] at hm
      omega
    have hx : x + 1 ≤ 2 * ((256 + f) * q) + 2 * q := by
      rw [hq, Nat.mul_left_comm, Nat.add_mul (256 + f)] at hhigh
      omega
    have hKx := Nat.mul_le_mul_left (256 * K) hx
    have hKd := Nat.le_mul_of_pos_left d hK
    have hKf := Nat.le_mul_of_pos_left (f * q) hK
    have hqK : 2 * q ≤ K := by omega
    rw [hd]
    linarith

end

end Sys2Proof.Machine
end

section
/-! The reference tables (R102, R106) as lists of numbers, and what of them the contract and the bounds rest on: the
steps between neighbouring entries, and that the two corrections undo each other up to three units. -/

namespace Sys2Proof.Machine

open Sys2Proof

/-- The entries of the reference `FWD_TAB` (R102). -/
def fwdReference : List Nat := Config.fwdReferenceLow ++ Config.fwdReferenceHigh

/-- The entries of the reference `INV_TAB` (R106). -/
def invReference : List Nat := Config.invReferenceLow ++ Config.invReferenceHigh

theorem fwdReference_length : fwdReference.length = 256 := by decide +kernel

theorem invReference_length : invReference.length = 256 := by decide +kernel

theorem tableOf_get_toNat {low high : List Nat} (hl : low.length = 128) (hh : high.length = 128)
    (hbyte : ∀ t ∈ low ++ high, t < 256) {i : Nat} (hi : i < 256) :
    ((Config.tableOf low high hl hh).get (BitVec.ofNat 8 i).toFin).toNat = (low ++ high).getD i 0 := by
  have hlen : i < (low ++ high).length := by rw [List.length_append, hl, hh]; exact hi
  have hindex : ((BitVec.ofNat 8 i).toFin : Nat) = i := Nat.mod_eq_of_lt hi
  have hentry := hbyte _ (List.getElem_mem hlen)
  rw [Vector.get_eq_getElem, List.getD_eq_getElem _ _ hlen]
  simp only [Config.tableOf, hindex, Vector.getElem_mk, List.getElem_toArray, List.getElem_map, BitVec.toNat_ofNat]
  exact Nat.mod_eq_of_lt hentry

theorem reference_fwdRead {f : Nat} (hf : f < 256) :
    (Config.reference.fwdRead (BitVec.ofNat 8 f)).toNat = fwdReference.getD f 0 :=
  tableOf_get_toNat rfl rfl (by decide +kernel) hf

theorem reference_invRead {i : Nat} (hi : i < 256) :
    (Config.reference.invRead (BitVec.ofNat 8 i)).toNat = invReference.getD i 0 :=
  tableOf_get_toNat rfl rfl (by decide +kernel) hi

theorem reference_fwdCode {f : Nat} (hf : f < 256) : Config.reference.fwdCode f = 2 * f + fwdReference.getD f 0 := by
  rw [Config.fwdCode, reference_fwdRead hf]

theorem reference_invMantissa {k : Nat} (hk : k < 512) :
    Config.reference.invMantissa k = 1024 + 2 * k - invReference.getD (k / 2) 0 := by
  rw [Config.invMantissa, reference_invRead (by omega)]

/-! ## The contract (R108) -/

theorem getD_of_isChain {R : Nat → Nat → Prop} {l : List Nat} (h : l.IsChain R) {i : Nat} (hi : i + 1 < l.length) :
    R (l.getD i 0) (l.getD (i + 1) 0) := by
  rw [List.getD_eq_getElem _ _ hi, List.getD_eq_getElem _ _ (Nat.lt_of_succ_lt hi)]
  exact List.isChain_iff_getElem.1 h i hi

/-- The step between neighbours that T2 asks for. -/
theorem fwdReference_isChain : fwdReference.IsChain fun a b => a < b + 2 := by decide +kernel

/-- The step between neighbours that T3 asks for. -/
theorem invReference_isChain : invReference.IsChain fun a b => b ≤ a + 2 := by decide +kernel

theorem reference_fwdCode_rises {f : Nat} (hf : f < 255) :
    Config.reference.fwdCode f < Config.reference.fwdCode (f + 1) := by
  have hstep := getD_of_isChain fwdReference_isChain (i := f) (by rw [fwdReference_length]; omega)
  rw [reference_fwdCode (by omega), reference_fwdCode (by omega)]
  omega

/-- Within a pair of fractions that share an entry `M` rises by 2, and between pairs as the entries allow. -/
theorem reference_invMantissa_rises {k : Nat} (hk : k < 511) :
    Config.reference.invMantissa k ≤ Config.reference.invMantissa (k + 1) := by
  rw [reference_invMantissa (by omega), reference_invMantissa (by omega)]
  rcases Nat.mod_two_eq_zero_or_one k with hpar | hpar
  · rw [show (k + 1) / 2 = k / 2 by omega]
    omega
  · have hstep := getD_of_isChain invReference_isChain (i := k / 2) (by rw [invReference_length]; omega)
    rw [show (k + 1) / 2 = k / 2 + 1 by omega]
    omega

theorem reference_tableContract : TableContract Config.reference where
  fwd_zero := by decide
  inv_zero := by decide
  fwd_rises _ := reference_fwdCode_rises
  fwd_last := by
    rw [reference_fwdCode (by decide)]
    decide +kernel
  inv_rises _ := reference_invMantissa_rises
  inv_first := by
    rw [reference_invMantissa (by decide)]
    decide +kernel
  inv_last := by
    rw [reference_invMantissa (by decide)]
    decide +kernel

theorem reference_wf : Config.reference.wf = true :=
  (wf_iff_tableContract _).2 ⟨rfl, rfl, reference_tableContract⟩

/-! ## The two corrections together -/

/-- Twice a forward correction is the inverse correction at its code, up to three units; the inverse table is read from
place to place, so that the check walks both lists once. -/
theorem corrections_undo : ∀ p ∈ fwdReference.zip invReference.tails,
    p.2.getD (p.1 / 2) 0 ≤ 2 * p.1 ∧ 2 * p.1 ≤ p.2.getD (p.1 / 2) 0 + 3 := by decide +kernel

theorem corrections_undo_low : ∀ f < 5,
    2 * fwdReference.getD f 0 ≤ invReference.getD (f + fwdReference.getD f 0 / 2) 0 + 1 := by decide +kernel

theorem corrections_undo_getD {f : Nat} (hf : f < 256) :
    invReference.getD (f + fwdReference.getD f 0 / 2) 0 ≤ 2 * fwdReference.getD f 0 ∧
      2 * fwdReference.getD f 0 ≤ invReference.getD (f + fwdReference.getD f 0 / 2) 0 + 3 := by
  have hmem : (fwdReference.getD f 0, invReference.drop f) ∈ fwdReference.zip invReference.tails := by
    refine List.mem_iff_getElem.2 ⟨f, ?_, ?_⟩
    · rw [List.length_zip, List.length_tails, fwdReference_length, invReference_length]
      omega
    · rw [List.getElem_zip, List.getElem_tails, List.getD_eq_getElem]
  have h := corrections_undo _ hmem
  simpa only [List.getD_eq_getElem?_getD, List.getElem?_drop] using h

/-- The mantissa of a field `f` is that of `1 + f / 256`, and at most three units more. -/
theorem reference_roundTripMantissa {f : Nat} (hf : f < 256) :
    4 * (256 + f) ≤ roundTripMantissa Config.reference f ∧ roundTripMantissa Config.reference f ≤ 4 * (256 + f) + 3 ∧
      (f < 5 → roundTripMantissa Config.reference f ≤ 4 * (256 + f) + 1) := by
  have hcode := fwdCode_le reference_wf (Nat.le_of_lt_succ hf)
  have hlow := corrections_undo_low f
  obtain ⟨hlo, hhi⟩ := corrections_undo_getD hf
  rw [roundTripMantissa, reference_invMantissa (by omega), reference_fwdCode hf,
    show (2 * f + fwdReference.getD f 0) / 2 = f + fwdReference.getD f 0 / 2 by omega]
  omega

/-! ## The round trip (R107) -/

section
variable {x : Nat} (hx : x ≠ 0)
include hx

theorem reference_roundTrip_upper : 261 * roundTrip Config.reference x ≤ 262 * x := by
  obtain ⟨_, hhi, hhi'⟩ := reference_roundTripMantissa (mantissaField_lt x)
  exact halfUp_upper (mantissaField_bounds hx).1 (Nat.le_add_right ..) hhi fun h => hhi' (by omega)

theorem reference_roundTrip_lower {K : Nat} (hK : 1 ≤ K) (he : 2 ^ Nat.log2 x ≤ 256 * K) :
    256 * K * x + roundTrip Config.reference x ≤ 257 * K * roundTrip Config.reference x :=
  halfUp_lower hK he (mantissaField_bounds hx).2 (Nat.le_add_right ..)
    (reference_roundTripMantissa (mantissaField_lt x)).1

theorem reference_roundTrip_lower16 (hx16 : x < 2 ^ 16) : 32768 * x ≤ 32895 * roundTrip Config.reference x := by
  have he : 2 ^ Nat.log2 x ≤ 2 ^ 15 :=
    Nat.pow_le_pow_right (by decide) (Nat.le_of_lt_succ ((Nat.log2_lt hx).2 hx16))
  have h := reference_roundTrip_lower hx (K := 128) (by decide) he
  omega

theorem reference_roundTrip_lower32 (hx32 : x < 2 ^ 32) :
    2147483648 * x ≤ 2155872255 * roundTrip Config.reference x := by
  have he : 2 ^ Nat.log2 x ≤ 2 ^ 31 :=
    Nat.pow_le_pow_right (by decide) (Nat.le_of_lt_succ ((Nat.log2_lt hx).2 hx32))
  have h := reference_roundTrip_lower hx (K := 8388608) (by decide) he
  omega

/-- 261, the first inexact input, is the first whose mantissa is two units off at `e = 8`. -/
theorem reference_roundTrip_exact (hx260 : x ≤ 260) : roundTrip Config.reference x = x := by
  have he : Nat.log2 x < 9 := (Nat.log2_lt hx).2 (by omega)
  have hexact := mantissaField_exact hx (by omega)
  obtain ⟨hlo, hhi, hhi'⟩ := reference_roundTripMantissa (mantissaField_lt x)
  rcases Nat.lt_or_ge (Nat.log2 x) 8 with he8 | he8
  · have hpow : 2 ^ Nat.log2 x ≤ 2 ^ 7 := Nat.pow_le_pow_right (by decide) (by omega)
    exact halfUp_eq_of_exact hexact hlo hhi (by omega)
  · have hpow : 2 ^ Nat.log2 x = 256 := by rw [show Nat.log2 x = 8 by omega]; rfl
    rw [hpow] at hexact
    exact halfUp_eq_of_exact (hpow ▸ hexact) hlo (hhi' (by omega)) (by omega)

/-- T4 for one input (R108). -/
theorem reference_roundTrip_error (hx32 : x < 2 ^ 32) :
    1000 * |(roundTrip Config.reference x : Int) - x| < 4 * x := by
  have hup := reference_roundTrip_upper hx
  have hlow := reference_roundTrip_lower32 hx hx32
  rcases abs_cases ((roundTrip Config.reference x : Int) - x) with ⟨habs, _⟩ | ⟨habs, _⟩ <;> omega

end

theorem toU16_fromU16 {c : Config} (hc : c.wf = true) {x : BitVec 16} (hx : x.toNat ≠ 0) :
    (toU16 c (fromU16 c x)).toNat = roundTrip c x.toNat := by
  rw [toU16_toNat, fromU16, zext, logTo_logFrom hc (by decide) hx x.isLt]

theorem toU32_fromU32 {c : Config} (hc : c.wf = true) {x : U32} (hx : x.toNat ≠ 0) :
    (toU32 c (fromU32 c x)).toNat = roundTrip c x.toNat := by
  rw [toU32_toNat, fromU32, zext, logTo_logFrom hc le_rfl hx x.isLt]

theorem toU16_fromU16_ofNat {c : Config} (hc : c.wf = true) {n : Nat} (hn : n ≠ 0) (hn16 : n < 2 ^ 16) :
    (toU16 c (fromU16 c (BitVec.ofNat 16 n))).toNat = roundTrip c n := by
  have hnat : (BitVec.ofNat 16 n).toNat = n := Nat.mod_eq_of_lt hn16
  rw [toU16_fromU16 hc (by rwa [hnat]), hnat]

theorem toU32_fromU32_ofNat {c : Config} (hc : c.wf = true) {n : Nat} (hn : n ≠ 0) (hn32 : n < 2 ^ 32) :
    (toU32 c (fromU32 c (BitVec.ofNat 32 n))).toNat = roundTrip c n := by
  have hnat : (BitVec.ofNat 32 n).toNat = n := Nat.mod_eq_of_lt hn32
  rw [toU32_fromU32 hc (by rwa [hnat]), hnat]

/-- Settles O18: the bounds are those of the named extremes, which imply the percentages. -/
theorem roundTripErrorOfTheReferenceTables : Obligations.RoundTripErrorOfTheReferenceTables := by
  unfold Obligations.RoundTripErrorOfTheReferenceTables
  intro c r16 r32
  have h16 {n : Nat} (hn : n ≠ 0) (hn16 : n < 2 ^ 16) := toU16_fromU16_ofNat reference_wf hn hn16
  have h32 {n : Nat} (hn : n ≠ 0) (hn32 : n < 2 ^ 32) := toU32_fromU32_ofNat reference_wf hn hn32
  refine ⟨fun n hn hn' => ?exact, fun n hn => ?pow16, fun n hn => ?pow32, fun x hx => ?bounds16, ?extremes16,
    fun x hx => ?bounds32, ?extreme32⟩
  case exact =>
    have hexact := reference_roundTrip_exact (x := n) (by omega) hn'
    exact ⟨congrArg Nat.cast ((h16 (by omega) (by omega)).trans hexact),
      congrArg Nat.cast ((h32 (by omega) (by omega)).trans hexact)⟩
  case pow16 =>
    exact congrArg Nat.cast ((h16 (Nat.two_pow_pos n).ne' (Nat.pow_lt_pow_right (by decide) hn)).trans
      (roundTrip_two_pow reference_wf n))
  case pow32 =>
    exact congrArg Nat.cast ((h32 (Nat.two_pow_pos n).ne' (Nat.pow_lt_pow_right (by decide) hn)).trans
      (roundTrip_two_pow reference_wf n))
  case bounds16 =>
    have hx' := toNat_ne_zero hx
    have hup := reference_roundTrip_upper hx'
    have hlow := reference_roundTrip_lower16 hx' x.isLt
    have htrip : r16 x = roundTrip Config.reference x.toNat :=
      congrArg Nat.cast (toU16_fromU16 reference_wf hx')
    rw [htrip]
    omega
  case extremes16 => decide +kernel
  case bounds32 =>
    have hx' := toNat_ne_zero hx
    have hup := reference_roundTrip_upper hx'
    have hlow := reference_roundTrip_lower32 hx' x.isLt
    have htrip : r32 x = roundTrip Config.reference x.toNat :=
      congrArg Nat.cast (toU32_fromU32 reference_wf hx')
    rw [htrip]
    omega
  case extreme32 => decide +kernel

/-- Settles O19: T4 at both widths is one bound on `roundTrip`. -/
theorem referenceTablesMeetTheContract : Obligations.ReferenceTablesMeetTheContract := by
  refine ⟨reference_wf, fun x hx => ?_, fun x hx => ?_⟩
  · rw [toU32_fromU32 reference_wf (toNat_ne_zero hx)]
    exact reference_roundTrip_error (toNat_ne_zero hx) x.isLt
  · rw [toU16_fromU16 reference_wf (toNat_ne_zero hx)]
    exact reference_roundTrip_error (toNat_ne_zero hx) (x.isLt.trans (by decide))

end Sys2Proof.Machine
end

section
/-! The arithmetic commands of the LAU (R120 to R129): each answers one function of its codes, and the functions are
addition, subtraction and negation of bit patterns wherever nothing saturates. -/

namespace Sys2Proof.Machine

open Sys2Proof

/-! ## The words (R82): the operand field of `LL` and `H16` is two halves, that of `LN` has the count in the middle -/

theorem decode_append_halves {i : Instr} {op : BitVec 8} {x y : BitVec 16} (hop : i.opcode = op)
    (harg : i.arg = x ++ y) : decode (op ++ x ++ y) = .ok i := by
  apply decode_of_encode
  rw [encode, hop, harg, BitVec.append_assoc]
  rfl

theorem decode_append_count {i : Instr} {op n : BitVec 8} {a : LogValue} (hop : i.opcode = op)
    (harg : i.arg = encodeLN a n) : decode (op ++ 0#8 ++ n ++ a) = .ok i := by
  apply decode_of_encode
  rw [encode, hop, harg, encodeLN, BitVec.append_assoc, BitVec.append_assoc, BitVec.append_assoc]
  rfl

/-! ## The commands: every port may issue them, and they answer in format L (R92, R232) -/

section
variable (s : State) (a b : LogValue) (n : BitVec 8)

theorem exec_lmul : exec (.lmul a b) s = .next (s.answer (fmtL (multiply a b))) := rfl
theorem exec_ldiv : exec (.ldiv a b) s = .next (s.answer (fmtL (divide a b))) := rfl
theorem exec_lrcp : exec (.lrcp a) s = .next (s.answer (fmtL (reciprocal a))) := rfl
theorem exec_lsqr : exec (.lsqr a) s = .next (s.answer (fmtL (square a))) := rfl
theorem exec_lrsqr : exec (.lrsqr a) s = .next (s.answer (fmtL (reciprocalSquare a))) := rfl
theorem exec_lrsqrt : exec (.lrsqrt a) s = .next (s.answer (fmtL (reciprocalSqrt a))) := rfl
theorem exec_lshl : exec (.lshl a n) s = .next (s.answer (fmtL (shiftLeft a n))) := rfl
theorem exec_lshr : exec (.lshr a n) s = .next (s.answer (fmtL (shiftRight a n))) := rfl

end

/-! ## The square (R123, R124) -/

theorem square_of_high {a : LogValue} (h : 16384 ≤ a.toInt) : square a = 0x7FFF#16 := by
  have hsat : max (-32768) (min 32767 (2 * a.toInt)) = 32767 := by omega
  rw [square, sext, sat16, hsat]
  rfl

theorem square_of_low {a : LogValue} (h : a.toInt ≤ -16384) : square a = 0x8000#16 := by
  have hsat : max (-32768) (min 32767 (2 * a.toInt)) = -32768 := by omega
  rw [square, sext, sat16, hsat]
  rfl

theorem square_of_range {a : LogValue} (hlo : -16384 ≤ a.toInt) (hhi : a.toInt ≤ 16383) : square a = a + a := by
  have hsat : max (-32768) (min 32767 (2 * a.toInt)) = a.toInt + a.toInt := by omega
  rw [square, sext, sat16, hsat, BitVec.ofInt_add, BitVec.ofInt_toInt]

theorem square_eq_ite (a : LogValue) :
    square a = if 16384 ≤ a.toInt then 0x7FFF#16 else if a.toInt ≤ -16384 then 0x8000#16 else a + a := by
  split_ifs with hhigh hlow
  · exact square_of_high hhigh
  · exact square_of_low hlow
  · exact square_of_range (by omega) (by omega)

theorem reciprocalSquare_eq_ite (a : LogValue) :
    reciprocalSquare a =
      if 16384 ≤ a.toInt then 0x8001#16 else if a.toInt ≤ -16384 then 0x8000#16 else -(a + a) := by
  rw [reciprocalSquare, reciprocal_eq_neg, square_eq_ite, apply_ite Neg.neg, apply_ite Neg.neg]
  rfl

/-- Above the range the doubled code is even and 32767 is not; below it the doubled code wraps to one that is not
negative. -/
theorem square_eq_add_self_iff (a : LogValue) : square a = a + a ↔ -16384 ≤ a.toInt ∧ a.toInt ≤ 16383 := by
  refine ⟨fun h => ?_, fun ⟨hlo, hhi⟩ => square_of_range hlo hhi⟩
  have hdouble : (a + a).toInt = (a.toInt + a.toInt).bmod (2 ^ 16) := BitVec.toInt_add a a
  rw [← h, Int.bmod_def] at hdouble
  rcases lt_or_ge a.toInt (-16384) with hlow | hlo
  · have hsq : (square a).toInt = -32768 := by rw [square_of_low hlow.le]; rfl
    have hleast := BitVec.le_toInt a
    omega
  rcases le_or_gt a.toInt 16383 with hhi | hhigh
  · exact ⟨hlo, hhi⟩
  · have hsq : (square a).toInt = 32767 := by rw [square_of_high hhigh]; rfl
    omega

/-! ## The reciprocal root (R125) -/

theorem neg_toInt_tdiv_two (a : LogValue) :
    (-a.toInt).tdiv 2 = if 0 ≤ a.toInt then -(a.toInt / 2) else (-a.toInt) / 2 := by
  split_ifs with ha
  · rw [Int.neg_tdiv, Int.tdiv_eq_ediv_of_nonneg ha]
  · exact Int.tdiv_eq_ediv_of_nonneg (by omega)

/-- Half a code, negated in `ℤ`, is an `s16` whatever the code, the sentinel included. -/
theorem reciprocalSqrt_toInt (a : LogValue) :
    (reciprocalSqrt a).toInt = if 0 ≤ a.toInt then -(a.toInt / 2) else (-a.toInt) / 2 := by
  have hlo := BitVec.le_toInt a
  have hhi := BitVec.toInt_lt (x := a)
  rw [reciprocalSqrt, sext, neg_toInt_tdiv_two]
  exact wrap16_toInt_of_range (by split_ifs <;> omega) (by split_ifs <;> omega)

theorem reciprocalSqrt_range (a : LogValue) :
    -16383 ≤ (reciprocalSqrt a).toInt ∧ (reciprocalSqrt a).toInt ≤ 16384 := by
  have hlo := BitVec.le_toInt a
  have hhi := BitVec.toInt_lt (x := a)
  rw [reciprocalSqrt_toInt]
  split_ifs <;> omega

/-! ## The shifts (R126, R127) -/

theorem shiftLeft_eq_add_wrap16 (a : LogValue) (n : BitVec 8) : shiftLeft a n = a + wrap16 (n.toNat * 512) := by
  rw [shiftLeft, sext, zext, wrap16, BitVec.ofInt_add, BitVec.ofInt_toInt, wrap16]

theorem shiftRight_eq_sub_wrap16 (a : LogValue) (n : BitVec 8) : shiftRight a n = a - wrap16 (n.toNat * 512) := by
  rw [shiftRight, sext, zext, wrap16, Int.sub_eq_add_neg, BitVec.ofInt_add, BitVec.ofInt_neg, BitVec.ofInt_toInt,
    wrap16, BitVec.sub_eq_add_neg]

theorem wrap16_count (n : BitVec 8) : wrap16 (n.toNat * 512) = n.setWidth 16 * 512 := by
  rw [wrap16, BitVec.ofInt_mul, BitVec.ofInt_natCast, BitVec.ofNat_toNat]
  rfl

theorem shiftRight_shiftLeft (a : LogValue) (n : BitVec 8) : shiftRight (shiftLeft a n) n = a := by
  rw [shiftRight_eq_sub_wrap16, shiftLeft_eq_add_wrap16, add_sub_cancel_right]

/-- 128 exponent steps of 512 are once around `2^16`. -/
theorem wrap16_count_eq_zero_iff (n : BitVec 8) : wrap16 (n.toNat * 512) = 0 ↔ n.toNat % 128 = 0 := by
  have hzero : wrap16 (n.toNat * 512) = 0 ↔ ((n.toNat : Int) * 512).bmod (2 ^ 16) = 0 := by
    rw [← wrap16_toInt, ← BitVec.toInt_inj]
    rfl
  rw [hzero, ← Int.dvd_iff_bmod_eq_zero]
  omega

/-! ## The sentinel (R129): to every operation it is the integer -32768, its own negative modulo `2^16` -/

theorem logInvalid_toInt : Config.logInvalid.toInt = -32768 := rfl

theorem logInvalid_add_self : Config.logInvalid + Config.logInvalid = 0 := rfl

theorem multiply_comm (a b : LogValue) : multiply a b = multiply b a := by
  rw [multiply_eq_add, multiply_eq_add, BitVec.add_comm]

theorem multiply_logInvalid (a : LogValue) : multiply Config.logInvalid a = wrap16 (a.toInt - 32768) := by
  rw [multiply_comm, multiply, sext, sext, logInvalid_toInt, ← Int.sub_eq_add_neg]

theorem divide_logInvalid (a : LogValue) : divide a Config.logInvalid = wrap16 (a.toInt + 32768) := by
  rw [divide, sext, sext, logInvalid_toInt, Int.sub_neg]

theorem multiply_logInvalid_eq_iff (a : LogValue) : multiply Config.logInvalid a = Config.logInvalid ↔ a = 0 := by
  rw [multiply_eq_add, add_eq_left]

theorem logInvalid_divide_eq_iff (a : LogValue) : divide Config.logInvalid a = Config.logInvalid ↔ a = 0 := by
  rw [divide_eq_sub, sub_eq_self]

theorem divide_logInvalid_eq_iff (a : LogValue) : divide a Config.logInvalid = Config.logInvalid ↔ a = 0 := by
  rw [divide_eq_sub, sub_eq_iff_eq_add, logInvalid_add_self]

theorem shiftLeft_logInvalid_eq_iff (n : BitVec 8) :
    shiftLeft Config.logInvalid n = Config.logInvalid ↔ n.toNat % 128 = 0 := by
  rw [shiftLeft_eq_add_wrap16, add_eq_left, wrap16_count_eq_zero_iff]

theorem shiftRight_logInvalid_eq_iff (n : BitVec 8) :
    shiftRight Config.logInvalid n = Config.logInvalid ↔ n.toNat % 128 = 0 := by
  rw [shiftRight_eq_sub_wrap16, sub_eq_self, wrap16_count_eq_zero_iff]

/-- The sentinel lies below the underflow bound of the inverse conversion (R104). -/
theorem logTo_logInvalid (c : Config) (n : Nat) : logTo c n Config.logInvalid = 0 := logTo_low c n (by decide)

/-! ## The obligations -/

/-- Settles O20: the two words, and the two functions as sum and difference of bit patterns. -/
theorem multiplyAndDivideAnswerWrappedSums : Obligations.MultiplyAndDivideAnswerWrappedSums := by
  intro s a b
  rw [exec_lmul, exec_ldiv, multiply_eq_add, divide_eq_sub]
  exact ⟨decode_append_halves rfl rfl, decode_append_halves rfl rfl, rfl, rfl⟩

/-- Settles O21: the saturations of the square, which its reciprocal inherits. -/
theorem reciprocalAndSquaresAnswer : Obligations.ReciprocalAndSquaresAnswer := by
  intro s a
  rw [exec_lrcp, exec_lsqr, exec_lrsqr, reciprocal_eq_neg, square_eq_ite, reciprocalSquare_eq_ite]
  exact ⟨decode_append_halves rfl rfl, decode_append_halves rfl rfl, decode_append_halves rfl rfl, rfl, rfl, rfl⟩

/-- Settles O22: the quotient needs no wrapping. -/
theorem reciprocalRootTruncatesTowardZero : Obligations.ReciprocalRootTruncatesTowardZero := fun s a =>
  ⟨decode_append_halves rfl rfl, reciprocalSqrt a, exec_lrsqrt s a, reciprocalSqrt_toInt a, reciprocalSqrt_range a⟩

/-- Settles O23: both shifts move the code by the same bit pattern. -/
theorem shiftsMoveTheExponent : Obligations.ShiftsMoveTheExponent := by
  intro s a n
  refine ⟨decode_append_count rfl rfl, decode_append_count rfl rfl, ?left, ?right, shiftRight_shiftLeft a n⟩
  case left =>
    rw [exec_lshl, shiftLeft_eq_add_wrap16, wrap16_count]
    rfl
  case right =>
    rw [exec_lshr, shiftRight_eq_sub_wrap16, wrap16_count]
    rfl

/-- Settles O24: laws of addition modulo `2^16`, and the range in which the square does not saturate. -/
theorem logArithmeticLaws : Obligations.LogArithmeticLaws := by
  refine ⟨fun a b => ?_, multiply_comm, fun a => ?_, fun a b => ?_, fun a n => ?_, fun a => ?_⟩
  · rw [divide_eq_sub, multiply_eq_add, BitVec.add_sub_cancel]
  · rw [multiply_eq_add, add_zero]
  · rw [divide_eq_sub, multiply_eq_add, reciprocal_eq_neg, BitVec.sub_eq_add_neg]
  · rw [multiply_eq_add, shiftLeft_eq_add_wrap16]
  · rw [multiply_eq_add, square_eq_add_self_iff]

/-- Settles O25, row by row of R129: no row needs the other operand to differ from the sentinel. -/
theorem sentinelThroughEveryOperation : Obligations.SentinelThroughEveryOperation := by
  refine ⟨fun a _ => ?binary, rfl, rfl, rfl, rfl, rfl, reciprocalSqrt_toInt _, fun n => ?shifts, fun c => ?inverse⟩
  case binary =>
    exact ⟨multiply_logInvalid a, multiply_comm a _ ▸ multiply_logInvalid a, multiply_logInvalid_eq_iff a, rfl,
      logInvalid_divide_eq_iff a, divide_logInvalid a, divide_logInvalid_eq_iff a⟩
  case shifts => exact ⟨rfl, rfl, shiftLeft_logInvalid_eq_iff n, shiftRight_logInvalid_eq_iff n⟩
  case inverse =>
    exact ⟨congrArg (BitVec.ofNat 16) (logTo_logInvalid c 16), congrArg (BitVec.ofNat 32) (logTo_logInvalid c 32)⟩

end Sys2Proof.Machine
end

section
/-! What the queue's observers compute (R140, R143, R144): the two index comparisons as statements about the count, and
the displacement of an entry as a sum of bit patterns. -/

namespace Sys2Proof.Machine

open Sys2Proof

/-! ## The displacement of an entry (R140) -/

theorem ofInt_signedSteps (b : BitVec 8) (dir : Bool) :
    BitVec.ofInt 32 (signedSteps b dir) = if dir then b.setWidth 32 else -b.setWidth 32 := by
  have hsteps : BitVec.ofInt 32 b.toNat = b.setWidth 32 :=
    (BitVec.ofInt_natCast 32 b.toNat).trans (BitVec.ofNat_toNat 32 b)
  cases dir
  · exact BitVec.ofInt_neg.trans (congrArg Neg.neg hsteps)
  · exact hsteps

theorem wrap32_add_signedSteps (a : Position) (b : BitVec 8) (dir : Bool) :
    wrap32 (a.toInt + signedSteps b dir) = if dir then a + b.setWidth 32 else a - b.setWidth 32 := by
  rw [wrap32, BitVec.ofInt_add, BitVec.ofInt_toInt, ofInt_signedSteps, BitVec.sub_eq_add_neg, apply_ite (a + ·)]

theorem wrap32_sub_signedSteps (a : Position) (b : BitVec 8) (dir : Bool) :
    wrap32 (a.toInt - signedSteps b dir) = if dir then a - b.setWidth 32 else a + b.setWidth 32 := by
  rw [wrap32, Int.sub_eq_add_neg, BitVec.ofInt_add, BitVec.ofInt_neg, BitVec.ofInt_toInt, ofInt_signedSteps]
  cases dir
  · exact congrArg (a + ·) (BitVec.neg_neg)
  · exact (BitVec.sub_eq_add_neg a _).symm

/-! ## The index comparisons (R143, R144) -/

theorem State.isEmpty_iff (s : State) : s.isEmpty = true ↔ s.cq.readIdx = s.cq.writeIdx := decide_eq_true_iff

theorem State.isFull_iff (s : State) :
    s.isFull = true ↔ (s.cq.writeIdx + 1) % (s.cfg.queueLen + 1) = s.cq.readIdx := decide_eq_true_iff

theorem State.isEmpty_iff_count (s : State) (hr : s.cq.readIdx ≤ s.cfg.queueLen)
    (hw : s.cq.writeIdx ≤ s.cfg.queueLen) : s.isEmpty = true ↔ s.count = 0 := by
  constructor
  · intro hempty
    have hrw := s.isEmpty_iff.1 hempty
    rw [s.count_of_le hrw.le hw, hrw, Nat.sub_self]
  · intro hcount
    by_contra hne
    exact (s.count_pos hr hw (Bool.eq_false_iff.2 hne)).ne' hcount

/-- The index behind the write index is 0 exactly at the last slot. -/
theorem State.isFull_iff_count (s : State) (hr : s.cq.readIdx ≤ s.cfg.queueLen)
    (hw : s.cq.writeIdx ≤ s.cfg.queueLen) : s.isFull = true ↔ s.count = s.cfg.queueLen := by
  have hnext : (s.cq.writeIdx + 1) % (s.cfg.queueLen + 1) =
      if s.cq.writeIdx = s.cfg.queueLen then 0 else s.cq.writeIdx + 1 := by
    split_ifs with hlast
    · rw [hlast, Nat.mod_self]
    · exact Nat.mod_eq_of_lt (by omega)
  have hslots : s.cfg.cqSlots = s.cfg.queueLen + 1 := rfl
  rw [s.isFull_iff, hnext]
  rcases Nat.lt_or_ge s.cq.writeIdx s.cq.readIdx with h | h
  · rw [s.count_of_lt h hr]
    split_ifs <;> omega
  · rw [s.count_of_le h hw]
    split_ifs <;> omega

end Sys2Proof.Machine
end

section
/-! The commands of the queue (R141 to R146), each on the port that may issue it, and the end of the queue (R147(d)). -/

namespace Sys2Proof.Machine

open Sys2Proof

/-! ## The words (R82): the operand field of `Q` and `QA` is a concatenation behind the opcode, compared as numbers -/

theorem encode_qpush (ticks : BitVec 20) (stepsb : BitVec 8) (dir pause : Bool) :
    encode (.qpush ticks stepsb dir pause) =
      0x20#8 ++ 0#2 ++ BitVec.ofBool pause ++ BitVec.ofBool dir ++ stepsb ++ ticks := by
  apply BitVec.eq_of_toNat_eq
  simp only [encode, Instr.opcode, Instr.arg, encodeQ, BitVec.toNat_append, Nat.shiftLeft_or_distrib,
    ← Nat.shiftLeft_add, Nat.or_assoc]
  rfl

theorem encode_qack (stepsb : BitVec 8) (dir : Bool) :
    encode (.qack stepsb dir) = 0x24#8 ++ 0#3 ++ BitVec.ofBool dir ++ stepsb ++ 0#20 := by
  apply BitVec.eq_of_toNat_eq
  simp only [encode, Instr.opcode, Instr.arg, encodeQA, BitVec.toNat_append, Nat.shiftLeft_or_distrib,
    ← Nat.shiftLeft_add, Nat.or_assoc]
  rfl

/-! ## The commands behind their port check -/

theorem exec_qpush_rt {s : State} (hport : s.port = .rt) (ticks : BitVec 20) (stepsb : BitVec 8) (dir pause : Bool) :
    exec (.qpush ticks stepsb dir pause) s = .next (
      if s.isFull then s.raise .queueFull
      else if 65535 < ticks.toNat then s.raise .ticksOutOfRange
      else if 127 < stepsb.toNat then s.raise .stepsOutOfRange
      else (s.pushed ⟨ticks.setWidth 16, stepsb, dir, pause⟩).answer 0) := by
  rw [exec, execQpush, s.onPort_allowed (.qpush ..) _ (decide_eq_true hport),
    BitVec.setWidth_eq_extractLsb' (by decide)]
  rfl

theorem exec_qpop_emit {s : State} (hport : s.port = .emit) :
    exec .qpop s = .next (
      if s.isEmpty then s.answer 0
      else s.popped.answer (entryWord true (s.cq.slot.load s.cq.readIdx))) := by
  rw [exec, execQpop, s.onPort_allowed .qpop _ (decide_eq_true hport)]
  rfl

theorem exec_qack_emit {s : State} (hport : s.port = .emit) (stepsb : BitVec 8) (dir : Bool) :
    exec (.qack stepsb dir) s = .next (
      if 127 < stepsb.toNat then s.raise .stepsOutOfRange
      else (s.acknowledged (signedSteps stepsb dir)).answer 0) := by
  rw [exec, execQack, s.onPort_allowed (.qack ..) _ (decide_eq_true hport)]
  rfl

theorem exec_qempty (s : State) : exec .qempty s = .next (s.answer (fmtB s.isEmpty)) := rfl

theorem exec_qfull (s : State) : exec .qfull s = .next (s.answer (fmtB s.isFull)) := rfl

theorem exec_qend {s : State} (hport : s.port ≠ .emit) : exec .qend s = .next (s.answer s.qend) := by
  have hpermits : permits .qend s.port = true := by
    cases h : s.port with
    | emit => exact absurd h hport
    | app | rt => rfl
  rw [exec, execQend, s.onPort_allowed _ _ hpermits]
  rfl

theorem exec_init {s : State} (hport : s.port = .app) : exec .init s = .next (s.initialised.answer 0) := by
  rw [exec, execInit, s.onPort_allowed .init _ (decide_eq_true hport)]
  rfl

theorem fmtB_eq_ite (b : Bool) : fmtB b = if b then 1 else 0 := by cases b <;> rfl

/-! ## The obligations of the single commands -/

/-- Settles O26: the tests of `QPUSH` in their order, and the read after the one write. -/
theorem qpushStoresTheEntryOrRefuses : Obligations.QpushStoresTheEntryOrRefuses := by
  intro s ticks stepsb dir pause
  refine ⟨decode_of_encode (encode_qpush ..), fun hport => exec_refused _ s (decide_eq_false hport), fun hport => ?_⟩
  simp only [exec_qpush_rt hport, s.isFull_iff, ← wrap32_add_signedSteps]
  split_ifs
  · rfl
  · rfl
  · rfl
  · exact ⟨_, rfl, fun j => Memory.read_write _ _ j _⟩

/-- Settles O27: the entry answered is the load at the read index. -/
theorem qpopAnswersTheOldestEntry : Obligations.QpopAnswersTheOldestEntry := by
  intro s
  refine ⟨decode_of_encode rfl, fun hport => exec_refused _ s (decide_eq_false hport), fun hport hempty => ?_,
    fun hport hentry => ⟨s.cq.slot.load s.cq.readIdx, ?_, Memory.load_of_read _ _⟩⟩
  · rw [exec_qpop_emit hport, if_pos (s.isEmpty_iff.2 hempty)]
  · rw [exec_qpop_emit hport, if_neg (mt s.isEmpty_iff.1 hentry)]
    rfl

/-- Settles O28: the comparisons as they are computed, then as statements about the count. -/
theorem queueObserversAnswerWhatTheyCompute : Obligations.QueueObserversAnswerWhatTheyCompute := by
  intro s
  refine ⟨decode_of_encode rfl, decode_of_encode rfl, decode_of_encode rfl, ?empty, ?full,
    fun hr hw => ⟨s.isEmpty_iff_count hr hw, s.isFull_iff_count hr hw⟩,
    fun hport => exec_refused _ s (by rw [hport]; rfl), fun hport => ?queueEnd⟩
  case empty => simp only [exec_qempty, fmtB_eq_ite, s.isEmpty_iff]
  case full => simp only [exec_qfull, fmtB_eq_ite, s.isFull_iff]
  case queueEnd => rw [exec_qend hport, s.qend_eq]

/-- Settles O29: the two counters move by opposite bit patterns. -/
theorem qackMovesStepsToTheLivePosition : Obligations.QackMovesStepsToTheLivePosition := by
  intro s stepsb dir
  refine ⟨decode_of_encode (encode_qack ..), fun hport => exec_refused _ s (decide_eq_false hport),
    fun hport hsteps => ?_, fun hport hsteps => ?_⟩
  · rw [exec_qack_emit hport, if_pos hsteps]
  · rw [exec_qack_emit hport, if_neg (Nat.not_lt.2 hsteps), State.acknowledged, wrap32_add_signedSteps,
      wrap32_sub_signedSteps]
    rfl

/-! ## The end of the queue (R147(d), R181) -/

/-- Everything a `QPUSH` can do: raise a status and change nothing, or push its entry and answer `OK`. -/
theorem exec_qpush_cases {s t : State} {ticks : BitVec 20} {stepsb : BitVec 8} {dir pause : Bool}
    (h : exec (.qpush ticks stepsb dir pause) s = .next t) :
    (∃ st, st ≠ .ok ∧ t = s.raise st) ∨ t = (s.pushed ⟨ticks.setWidth 16, stepsb, dir, pause⟩).answer 0 := by
  by_cases hport : s.port = .rt
  · rw [exec_qpush_rt hport] at h
    obtain rfl := Host.Outcome.next.inj h
    split_ifs
    · exact .inl ⟨.queueFull, by decide, rfl⟩
    · exact .inl ⟨.ticksOutOfRange, by decide, rfl⟩
    · exact .inl ⟨.stepsOutOfRange, by decide, rfl⟩
    · exact .inr rfl
  · rw [exec_refused (.qpush ..) s (decide_eq_false hport)] at h
    exact .inl ⟨.portViolation, by decide, (Host.Outcome.next.inj h).symm⟩

theorem State.raise_outbox_ne_ok (s : State) {st : Status} (hst : st ≠ .ok) :
    (s.raise st).outbox ≠ s.outbox ++ [⟨s.port, .ok, 0⟩] := by
  simp [hst]

theorem State.pushed_qend (s : State) (e : QueueEntry) :
    (s.pushed e).qend = if e.dir then s.qend + e.steps.setWidth 32 else s.qend - e.steps.setWidth 32 := by
  rw [State.qend_eq, State.qend_eq]
  show s.cq.livePos + wrap32 (s.cq.netDisp.toInt + signedSteps e.steps e.dir) = _
  rw [wrap32_add_signedSteps, apply_ite (s.cq.livePos + ·), BitVec.add_assoc, add_sub_assoc]

/-- What one counter gains the other loses. -/
theorem State.acknowledged_qend (s : State) (b : BitVec 8) (dir : Bool) :
    (s.acknowledged (signedSteps b dir)).qend = s.qend := by
  rw [State.qend_eq, State.qend_eq]
  show wrap32 (s.cq.livePos.toInt + signedSteps b dir) + wrap32 (s.cq.netDisp.toInt - signedSteps b dir) = _
  rw [wrap32_add_signedSteps, wrap32_sub_signedSteps]
  split_ifs
  · exact add_add_sub_cancel _ _ _
  · exact sub_add_add_cancel _ _ _

theorem Effect.keeps_qend {i : Instr} {s u : State} (he : Effect s i u) (hinit : i ≠ .init)
    (hpush : ∀ a b c d, i ≠ .qpush a b c d) : u.qend = s.qend := by
  cases he with
  | nothing | stage | pop | publish | askGraceful | askImmediate => rfl
  | push => exact absurd rfl (hpush _ _ _ _)
  | acknowledge => exact s.acknowledged_qend _ _
  | initialise => exact absurd rfl hinit
  | sequence => exact s.qend_congr _ (by rw [s.rcomp_same.cq]) (by rw [s.rcomp_same.cq])

/-- Settles O30: a push answered `OK` is the only effect but `INIT`'s on the sum of the two counters. -/
theorem queueEndMovesWithPushesOnly : Obligations.QueueEndMovesWithPushesOnly := by
  intro i s t h
  constructor
  · rintro ticks stepsb dir pause rfl hok
    rcases exec_qpush_cases h with ⟨st, hst, rfl⟩ | rfl
    · exact absurd hok (s.raise_outbox_ne_ok hst)
    · exact s.pushed_qend _
  · intro hinit hnotOk
    by_cases hpush : ∃ a b c d, i = .qpush a b c d
    · obtain ⟨ticks, stepsb, dir, pause, rfl⟩ := hpush
      rcases exec_qpush_cases h with ⟨st, _, rfl⟩ | rfl
      · rfl
      · exact absurd rfl (hnotOk ticks stepsb dir pause rfl)
    · obtain ⟨u, st, d, he, rfl⟩ := exec_answered h
      exact he.keeps_qend hinit fun a b c d hi => hpush ⟨a, b, c, d, hi⟩

end Sys2Proof.Machine
end

section
/-! The ring as a first-in first-out list (R41, R147): what each write of `cq` does to the entries in flight. -/

namespace Sys2Proof.Machine

open Sys2Proof

/-- The entries in flight depend on the parameters, the slots and the two indices only. -/
theorem State.inFlight_congr {s t : State} (hcfg : t.cfg = s.cfg) (hslot : t.cq.slot = s.cq.slot)
    (hr : t.cq.readIdx = s.cq.readIdx) (hw : t.cq.writeIdx = s.cq.writeIdx) : t.inFlight = s.inFlight := by
  simp only [State.inFlight, State.flightSlot, s.count_congr t hcfg hr hw, hcfg, hslot, hr]

theorem State.inFlight_length (s : State) : s.inFlight.length = s.count := by
  rw [State.inFlight, List.length_map, List.length_range]

/-- Fewer entries than slots lie in different slots. -/
theorem State.flightSlot_ne (s : State) {j k : Nat} (hjk : j < k) (hk : k ≤ s.cfg.queueLen) :
    s.flightSlot j ≠ s.flightSlot k := fun h =>
  hjk.ne ((Nat.ModEq.add_left_cancel' s.cq.readIdx h).eq_of_lt_of_lt (by unfold Config.cqSlots; omega)
    (Nat.lt_succ_of_le hk))

/-- With room, a push writes the slot behind the entries in flight and no slot of theirs. -/
theorem State.pushed_inFlight (s : State) (e : QueueEntry) (hr : s.cq.readIdx ≤ s.cfg.queueLen)
    (hw : s.cq.writeIdx ≤ s.cfg.queueLen) (hroom : s.count < s.cfg.queueLen) :
    (s.pushed e).inFlight = s.inFlight ++ [e] := by
  have hcount : (s.pushed e).count = s.count + 1 := by rw [s.pushed_count, s.mod_cqSlots hroom]
  have hload (j : Nat) (hj : j < s.count) :
      (s.pushed e).cq.slot.load (s.flightSlot j) = s.cq.slot.load (s.flightSlot j) :=
    Memory.load_write_other _ _ _ _ (s.flightSlot_count hr hw ▸ s.flightSlot_ne hj hroom.le)
  have hlast : (s.pushed e).cq.slot.load (s.flightSlot s.count) = e := by
    rw [s.flightSlot_count hr hw]
    exact Memory.load_of_read _ _ _ (Memory.read_write_same _ _ _)
  rw [State.inFlight, hcount, List.range_succ, List.map_append]
  exact congrArg₂ (· ++ ·) (List.map_congr_left fun j hj => hload j (List.mem_range.1 hj)) (congrArg ([·]) hlast)

/-- The oldest entry lies at the read index, and a pop leaves the others. -/
theorem State.inFlight_eq_cons (s : State) (hr : s.cq.readIdx ≤ s.cfg.queueLen) (hcount : 0 < s.count) :
    s.inFlight = s.cq.slot.load s.cq.readIdx :: s.popped.inFlight := by
  have holdest : s.flightSlot 0 = s.cq.readIdx := s.mod_cqSlots hr
  rw [State.inFlight, ← s.popped_count hcount, List.range_succ_eq_map, List.map_cons, List.map_map, holdest]
  simp only [State.inFlight, s.popped_flightSlot]
  rfl

theorem State.initialised_inFlight (s : State) : s.initialised.inFlight = [] :=
  List.eq_nil_of_length_eq_zero
    (s.initialised.inFlight_length.trans (s.initialised.count_of_le (Nat.zero_le _) (Nat.zero_le _)))

theorem Effect.keeps_inFlight {i : Instr} {s u : State} (he : Effect s i u) (hpop : i ≠ .qpop) (hinit : i ≠ .init)
    (hpush : ∀ a b c d, i ≠ .qpush a b c d) : u.inFlight = s.inFlight := by
  cases he with
  | nothing | stage | publish | acknowledge | askGraceful | askImmediate => exact State.inFlight_congr rfl rfl rfl rfl
  | push => exact absurd rfl (hpush _ _ _ _)
  | pop => exact absurd rfl hpop
  | initialise => exact absurd rfl hinit
  | sequence =>
    have hcq := s.rcomp_same.cq
    exact State.inFlight_congr s.rcomp_same.cfg (by rw [hcq]) (by rw [hcq]) (by rw [hcq])

/-- Settles O32: the count is the length, and each of the three commands that write an index or a slot does to the list
what its name says. -/
theorem theRingRefinesAFirstInFirstOutList : Obligations.TheRingRefinesAFirstInFirstOutList := by
  intro s hinv
  have hempty := s.isEmpty_iff_count hinv.read_le hinv.write_le
  have hfull := s.isFull_iff_count hinv.read_le hinv.write_le
  rw [← s.inFlight_length] at hempty hfull
  refine ⟨s.inFlight_length ▸ s.count_le, hempty.trans List.length_eq_zero_iff, hfull, ?push, ?pop, ?init, ?others⟩
  case push =>
    intro ticks stepsb dir pause hport hroom hticks hsteps
    refine ⟨_, exec_qpush_rt hport .., ?_⟩
    rw [if_neg fun h => hroom.ne (hfull.1 h), if_neg (Nat.not_lt.2 hticks), if_neg (Nat.not_lt.2 hsteps)]
    exact s.pushed_inFlight _ hinv.read_le hinv.write_le (s.inFlight_length ▸ hroom)
  case pop =>
    intro e rest hport hlist
    have hlength : s.inFlight.length = rest.length + 1 := by rw [hlist, List.length_cons]
    have hcons := s.inFlight_eq_cons hinv.read_le (by rw [← s.inFlight_length]; omega)
    obtain ⟨rfl, rfl⟩ := List.cons.inj (hlist.symm.trans hcons)
    refine ⟨_, exec_qpop_emit hport, ?_⟩
    rw [if_neg fun h => by have := hempty.1 h; omega]
    exact ⟨rfl, by rw [State.answer_outbox, ← hport]; rfl⟩
  case init =>
    exact fun hport => ⟨_, exec_init hport, s.initialised_inFlight⟩
  case others =>
    intro i t h hpop hinit hpush
    obtain ⟨u, st, d, he, rfl⟩ := exec_answered h
    exact he.keeps_inFlight hpop hinit hpush

end Sys2Proof.Machine
end

section
/-! The staged parameters (R160 to R168): each command of the PRM on the port that may issue it, and the invariant its
writes keep. -/

namespace Sys2Proof.Machine

open Sys2Proof

/-! ## The staging invariant (R168(a), R28) -/

theorem StagedInv.of_sameUnit {s t : State} (h : SameUnit s t) (hs : StagedInv s) : StagedInv t := by
  obtain ⟨_, hp, hro, _, _, _⟩ := h
  exact hs.congr hp hro

/-- Settles O39: taking a command and answering it write neither `p` nor `ro`, and every effect keeps the invariant. -/
theorem everyStepKeepsTheStagingInvariant : Obligations.EveryStepKeepsTheStagingInvariant :=
  fun _ _ hs hstep => step_preserves StagedInv.of_sameUnit Effect.keeps_stagedInv hstep hs

/-! ## The commands behind their port check -/

section
variable {s : State} (hport : s.port = .app)
include hport

theorem exec_pacc_app (x : BitVec 32) :
    exec (.pacc x) s = .next (
      if x.toInt ≤ 0 then s.raise .invalidAcceleration
      else State.answer { s with p := { s.p with accel := x, dirty := true } } 0) := by
  rw [exec, execPacc, s.onPort_allowed (.pacc x) _ (decide_eq_true hport)]
  rfl

theorem exec_pspd_app (x : U32) :
    exec (.pspd x) s = .next (State.answer { s with p := { s.p with speed := x, dirty := true } } 0) := by
  rw [exec, execPspd, s.onPort_allowed (.pspd x) _ (decide_eq_true hport)]
  rfl

theorem exec_ptgt_app (x : Position) :
    exec (.ptgt x) s = .next (State.answer { s with p := { s.p with target := x, dirty := true } } 0) := by
  rw [exec, execPtgt, s.onPort_allowed (.ptgt x) _ (decide_eq_true hport)]
  rfl

theorem exec_pkeep_app (flag dir : Bool) :
    exec (.pkeep flag dir) s =
      .next (State.answer { s with p := { s.p with keep := flag, keepDir := dir, dirty := true } } 0) := by
  rw [exec, execPkeep, s.onPort_allowed (.pkeep flag dir) _ (decide_eq_true hport)]
  rfl

theorem exec_pchk_app :
    exec .pchk s = .next (if s.p.check = .ok then s.answer 0 else s.raise s.p.check) := by
  rw [exec, execPchk, s.onPort_allowed .pchk _ (decide_eq_true hport)]
  rfl

end

theorem exec_pub_rt {s : State} (hport : s.port = .rt) :
    exec .pub s = .next (if s.p.dirty then s.published.answer 1 else s.answer 0) := by
  rw [exec, execPub, s.onPort_allowed .pub _ (decide_eq_true hport)]
  rfl

/-! ## What they compute -/

theorem encode_pkeep (flag dir : Bool) :
    encode (.pkeep flag dir) = 0x34#8 ++ 0#30 ++ BitVec.ofBool dir ++ BitVec.ofBool flag := by
  apply BitVec.eq_of_toNat_eq
  simp only [encode, Instr.opcode, Instr.arg, encodeKD, BitVec.toNat_append, Nat.shiftLeft_or_distrib,
    ← Nat.shiftLeft_add, Nat.or_assoc]
  rfl

/-- `INIT` leaves nothing of the state before but the parameters, the slots and the interface (R160). -/
theorem State.initialised_eq (s : State) :
    s.initialised =
      { State.resetWith s.cfg with
        cq := { (State.resetWith s.cfg).cq with slot := s.cq.slot }
        port := s.port, inbox := s.inbox, outbox := s.outbox } := rfl

/-- The first register found missing decides the status of the configuration check (R165). -/
theorem State.answer_check (s : State) (d : BitVec 32) :
    (if s.p.check = .ok then s.answer d else s.raise s.p.check) =
      if s.p.accel = 0 then s.raise .missingAcceleration
      else if s.p.speed = 0 then s.raise .missingSpeedLimit else s.answer d := by
  rw [Params.check]
  split
  · rfl
  · split
    · rfl
    · rfl

theorem State.published_eq (s : State) :
    s.published =
      { s with
        ro := s.p.snapshot
        rw := { s.rw with reload := s.rw.reload || s.p.apply }
        p := s.p.clearFlags } := by
  obtain ⟨_, _, hrw, _⟩ := s.published_frame
  rw [← hrw]
  rfl

/-! ## The obligations of the single commands -/

/-- Settles O34: the reset state of the same configuration, with the slots and the interface put back. -/
theorem initRestoresTheResetState : Obligations.InitRestoresTheResetState := by
  intro s
  refine ⟨decode_of_encode rfl, fun hport => exec_refused _ s (decide_eq_false hport), fun hport => ?_⟩
  rw [exec_init hport, s.initialised_eq]

/-- Settles O35: the sign of the operand is the one test behind the port's. -/
theorem paccStagesAPositiveAcceleration : Obligations.PaccStagesAPositiveAcceleration := by
  intro s x
  refine ⟨decode_of_encode rfl, fun hport => exec_refused _ s (decide_eq_false hport), fun hport hx => ?_,
    fun hport hx => ?_⟩
  · rw [exec_pacc_app hport, if_pos hx]
  · rw [exec_pacc_app hport, if_neg (Int.not_le.2 hx)]

/-- Settles O36: none of the three setters has a test behind the port's. -/
theorem rawSettersStageTheirFields : Obligations.RawSettersStageTheirFields := by
  intro s x flag dir
  refine ⟨decode_of_encode rfl, decode_of_encode rfl, decode_of_encode (encode_pkeep flag dir),
    fun hport => ?refused, fun hport => ⟨exec_pspd_app hport x, exec_ptgt_app hport x, exec_pkeep_app hport flag dir⟩⟩
  case refused =>
    have happ : decide (s.port = .app) = false := decide_eq_false hport
    exact ⟨exec_refused _ s happ, exec_refused _ s happ, exec_refused _ s happ⟩

/-- Settles O37: the check reads the acceleration before the speed limit. -/
theorem pchkReportsWhatIsMissing : Obligations.PchkReportsWhatIsMissing := by
  intro s
  refine ⟨decode_of_encode rfl, fun hport => exec_refused _ s (decide_eq_false hport), fun hport => ?_⟩
  rw [exec_pchk_app hport, s.answer_check]

/-- Settles O38: `PUB` tests `dirty` alone, and one write is the whole handoff. -/
theorem pubPublishesTheStagedRecord : Obligations.PubPublishesTheStagedRecord := by
  intro s
  refine ⟨decode_of_encode rfl, fun hport => exec_refused _ s (decide_eq_false hport), fun hport hclean => ?_,
    fun hport hdirty => ?_⟩
  · rw [exec_pub_rt hport, hclean]
    rfl
  · rw [exec_pub_rt hport, if_pos hdirty, s.published_eq]
    rfl

end Sys2Proof.Machine
end

section
/-! The requests of the application and of both contexts (R182 to R189): each command on the ports that may issue it. -/

namespace Sys2Proof.Machine

open Sys2Proof

/-! ## The configuration check, as the statements write it (R165) -/

theorem Params.check_of_ready {p : Params} (ha : p.accel ≠ 0) (hv : p.speed ≠ 0) : p.check = .ok :=
  p.check_eq_ok.2 ⟨ha, hv⟩

theorem State.checked_of_missing {s : State} (h : s.missing ≠ .ok) (f : State → State) :
    s.checked f = s.raise s.missing := if_neg h

theorem State.checked_of_ready {s : State} (ha : s.p.accel ≠ 0) (hv : s.p.speed ≠ 0) (f : State → State) :
    s.checked f = f s := if_pos (Params.check_of_ready ha hv)

/-! ## The motion commands of the application, behind their port check -/

section
variable {s : State} (hport : s.port = .app)
include hport

theorem exec_rrun_app (dir : Bool) :
    exec (.rrun dir) s = .next (s.checked fun s =>
      State.answer { s with p := { s.p with keep := true, keepDir := dir, dirty := true, apply := true } } 1) := by
  rw [exec, execRrun, s.onPort_allowed (.rrun dir) _ (decide_eq_true hport)]
  rfl

theorem exec_rmovt_app (x : Position) :
    exec (.rmovt x) s = .next (s.checked fun s =>
      if s.impliedEnd = some x then s.answer 0 else (s.commitTarget x).answer 1) := by
  rw [exec, execRmovt, s.onPort_allowed (.rmovt x) _ (decide_eq_true hport)]
  rfl

theorem exec_rmove_app (d : Position) :
    exec (.rmove d) s = .next (s.checked fun s =>
      if s.impliedEnd = some (s.moveTarget d) then s.answer 0 else (s.commitTarget (s.moveTarget d)).answer 1) := by
  rw [exec, execRmove, s.onPort_allowed (.rmove d) _ (decide_eq_true hport)]
  rfl

theorem exec_radv_app (d : Position) :
    exec (.radv d) s = .next (
      if s.rw.phase ≠ .idle ∧ s.rw.keep = false ∧ s.p.keep = false then
        State.answer { s with p := { s.p with target := s.p.target + d, dirty := true, apply := true } } 1
      else s.answer 0) := by
  rw [exec, execRadv, s.onPort_allowed (.radv d) _ (decide_eq_true hport), ← wrap32_add s.p.target d]
  rfl

end

/-! ## The commands of both contexts -/

/-- A command that APP and RT may issue is issued on one of them when it is not issued on EMIT (R232). -/
theorem permits_of_ne_emit {i : Instr} {q : Port} (happ : permits i .app = true) (hrt : permits i .rt = true)
    (hport : q ≠ .emit) : permits i q = true := by
  cases q with
  | app => exact happ
  | rt => exact hrt
  | emit => exact absurd rfl hport

theorem exec_rstop {s : State} (hport : s.port ≠ .emit) :
    exec .rstop s = .next (State.answer { s with req := { s.req with gstop := true } } 0) := by
  rw [exec, execRstop, s.onPort_allowed .rstop _ (permits_of_ne_emit rfl rfl hport)]
  rfl

theorem exec_ristop {s : State} (hport : s.port ≠ .emit) :
    exec .ristop s = .next (State.answer { s with req := { s.req with istop := true } } 0) := by
  rw [exec, execRistop, s.onPort_allowed .ristop _ (permits_of_ne_emit rfl rfl hport)]
  rfl

theorem exec_rgacc {s : State} (hport : s.port ≠ .emit) :
    exec .rgacc s = .next (s.answer (wrap32 s.rw.signedAccel)) := by
  rw [exec, execRgacc, s.onPort_allowed .rgacc _ (permits_of_ne_emit rfl rfl hport)]
  rfl

/-! ## What they compute -/

theorem encode_rrun (dir : Bool) : encode (.rrun dir) = 0x40#8 ++ 0#31 ++ BitVec.ofBool dir := by
  rw [BitVec.append_assoc]
  rfl

/-- The end of the motion already requested, the most recent request first (R182). -/
theorem State.impliedEnd_eq (s : State) :
    s.impliedEnd =
      if s.req.gstop = true ∨ s.req.istop = true then none
      else if s.p.apply = true then (if s.p.keep then none else some s.p.target)
      else if s.rw.reload = true then (if s.ro.keep then none else some s.ro.target)
      else if s.rw.phase ≠ .idle then (if s.rw.keep then none else some s.rw.target)
      else some (s.cq.livePos + s.cq.netDisp) := by
  simp only [State.impliedEnd, Bool.or_eq_true, s.qend_eq]

theorem State.moveTarget_eq (s : State) (d : Position) :
    s.moveTarget d = s.impliedEnd.getD (s.cq.livePos + s.cq.netDisp) + d := by
  rw [State.moveTarget, sext, sext, wrap32_add, s.qend_eq]

/-- A relative move ends where the motion already requested does exactly when there is such an end and the distance
is 0 (R185). -/
theorem State.impliedEnd_eq_moveTarget_iff (s : State) (d : Position) :
    s.impliedEnd = some (s.moveTarget d) ↔ s.impliedEnd ≠ none ∧ d = 0 := by
  rw [s.moveTarget_eq]
  cases s.impliedEnd with
  | none => simp
  | some x => simp [eq_comm (a := x)]

theorem wrap32_natCast (x : U32) : wrap32 (x.toNat : Int) = x :=
  (BitVec.ofInt_natCast 32 x.toNat).trans (BitVec.ofNat_toNat 32 x |>.trans (BitVec.setWidth_eq x))

theorem wrap32_neg_natCast (x : U32) : wrap32 (-(x.toNat : Int)) = -x :=
  BitVec.ofInt_neg.trans (congrArg Neg.neg (wrap32_natCast x))

/-! ## The obligations -/

/-- Settles O40: behind the port's test and the configuration check there is one write. -/
theorem rrunStagesAKeepRunningRequest : Obligations.RrunStagesAKeepRunningRequest := by
  intro s dir
  refine ⟨decode_of_encode (encode_rrun dir), fun hport => exec_refused _ s (decide_eq_false hport),
    fun hport hmissing => ?_, fun hport ha hv => ?_⟩
  · rw [exec_rrun_app hport, State.checked_of_missing hmissing]
  · rw [exec_rrun_app hport, State.checked_of_ready ha hv]

/-- Settles O41: the configuration check comes before the test on the implied end. -/
theorem rmovtCommitsANewTarget : Obligations.RmovtCommitsANewTarget := by
  intro s x
  refine ⟨decode_of_encode rfl, s.impliedEnd_eq, fun hport => exec_refused _ s (decide_eq_false hport),
    fun hport hmissing => ?_, fun hport ha hv hend => ?_, fun hport ha hv hend => ?_⟩
  · rw [exec_rmovt_app hport, State.checked_of_missing hmissing]
  · rw [exec_rmovt_app hport, State.checked_of_ready ha hv, if_pos hend]
  · rw [exec_rmovt_app hport, State.checked_of_ready ha hv, if_neg hend, s.commitTarget_eq]

/-- Settles O42: the no-op test compares two targets, which differ by the distance. -/
theorem rmoveCommitsARelativeTarget : Obligations.RmoveCommitsARelativeTarget := by
  intro s d
  refine ⟨decode_of_encode rfl, fun hport => exec_refused _ s (decide_eq_false hport),
    fun hport hmissing => ?_, fun hport ha hv hend hd => ?_, fun hport ha hv hmove => ?_⟩
  · rw [exec_rmove_app hport, State.checked_of_missing hmissing]
  · rw [exec_rmove_app hport, State.checked_of_ready ha hv, if_pos ((s.impliedEnd_eq_moveTarget_iff d).2 ⟨hend, hd⟩)]
  · have hnew : s.impliedEnd ≠ some (s.moveTarget d) := fun h => by
      obtain ⟨hend, hd⟩ := (s.impliedEnd_eq_moveTarget_iff d).1 h
      exact hmove.elim hend fun hne => hne hd
    rw [exec_rmove_app hport, State.checked_of_ready ha hv, if_neg hnew, s.commitTarget_eq, s.moveTarget_eq]

/-- Settles O43: the test on the running and the staged mode is the only one. -/
theorem radvExtendsARunningMove : Obligations.RadvExtendsARunningMove := by
  intro s d
  refine ⟨decode_of_encode rfl, fun hport => exec_refused _ s (decide_eq_false hport), fun hport hnone => ?_,
    fun hport hphase hrunning hstaged => ?_⟩
  · rw [exec_radv_app hport, if_neg]
    rintro ⟨hphase, hrunning, hstaged⟩
    simp [hphase, hrunning, hstaged] at hnone
  · rw [exec_radv_app hport, if_pos ⟨hphase, hrunning, hstaged⟩]

/-- Settles O44: neither request has a test behind the port's. -/
theorem stopRequestsSetTheirFlag : Obligations.StopRequestsSetTheirFlag := by
  intro s
  refine ⟨decode_of_encode rfl, decode_of_encode rfl, fun hport => ?refused,
    fun hport => ⟨exec_rstop hport, exec_ristop hport⟩⟩
  case refused => exact ⟨exec_refused _ s (by rw [hport]; rfl), exec_refused _ s (by rw [hport]; rfl)⟩

/-- Settles O45: the four pairings of phase and direction, and the two phases without acceleration. -/
theorem rgaccAnswersTheSignedAcceleration : Obligations.RgaccAnswersTheSignedAcceleration := by
  intro s
  refine ⟨decode_of_encode rfl, fun hport => exec_refused _ s (by rw [hport]; rfl), fun hport => ?_⟩
  rw [exec_rgacc hport]
  congr 2
  have hpos := wrap32_natCast s.rw.accel
  have hneg := wrap32_neg_natCast s.rw.accel
  unfold Running.signedAccel zext
  cases s.rw.phase with
  | idle | coasting => simp [wrap32]
  | accelerating | decelerating => cases s.rw.dir <;> simp [hpos, hneg]

end Sys2Proof.Machine
end

section
/-! Velocity and interval of a ramp step (R190, R191): the code of the velocity as an integer, and the clamp of the tick
count. -/

namespace Sys2Proof.Machine

open Sys2Proof

theorem toNat_ofNat_of_lt {k : Nat} (hk32 : k < 2 ^ 32) : (BitVec.ofNat 32 k).toNat = k := by
  rw [BitVec.toNat_ofNat, Nat.mod_eq_of_lt hk32]

/-- The velocity code of a ramp step is half of `A + 512 + from(k)`, rounded down: no operation wraps (R190). -/
theorem velcode_toInt {c : Config} (hc : c.wf = true) {a : U32} (ha : a ≠ 0) (hmax : a.toNat ≤ 2 ^ 31 - 1) {k : Nat}
    (hk : k ≠ 0) (hk32 : k < 2 ^ 32) :
    (velcode c k (fromU32 c a)).toInt = ((fromU32 c a).toInt + 512 + (fromU32 c (BitVec.ofNat 32 k)).toInt) / 2 ∧
    256 ≤ (velcode c k (fromU32 c a)).toInt ∧ (velcode c k (fromU32 c a)).toInt ≤ 16383 := by
  have hkn := toNat_ofNat_of_lt hk32
  have hacc := fromU32_range hc (k := 31) (toNat_ne_zero ha) (by omega) (by decide)
  have hstep := fromU32_range hc (x := BitVec.ofNat 32 k) (by rwa [hkn]) (BitVec.isLt _) le_rfl
  have hshift : (shiftLeft (fromU32 c a) 1).toInt = (fromU32 c a).toInt + 512 := by
    refine wrap16_toInt_of_range (z := (fromU32 c a).toInt + 512) ?_ ?_ <;> omega
  have hsum : (multiply (shiftLeft (fromU32 c a) 1) (fromU32 c (BitVec.ofNat 32 k))).toInt =
      (fromU32 c a).toInt + 512 + (fromU32 c (BitVec.ofNat 32 k)).toInt := by
    rw [multiply_toInt, hshift] <;> omega
  have hhalf : (velcode c k (fromU32 c a)).toInt =
      ((fromU32 c a).toInt + 512 + (fromU32 c (BitVec.ofNat 32 k)).toInt) / 2 := by
    rw [velcode, if_neg hk, reciprocal_reciprocalSqrt_toInt (by omega), hsum]
  omega

theorem fromU32_mono {c : Config} (hc : c.wf = true) {x y : U32} (hxy : x.toNat ≤ y.toNat) :
    (fromU32 c x).toInt ≤ (fromU32 c y).toInt := by
  obtain ⟨_, _, _, _, hmono, _⟩ := forwardTransformProperties c hc
  rcases hxy.lt_or_eq with hlt | heq
  · exact hmono x y hlt
  · rw [BitVec.eq_of_toNat_eq heq]

/-- Settles O46: the order of the velocity codes is that of the forward transform. -/
theorem velocityCodeOfARampStep : Obligations.VelocityCodeOfARampStep := by
  intro c a hc ha hmax
  refine ⟨rfl, fun k hk hk32 => velcode_toInt hc ha hmax (by omega) (by omega), fun j k hj hjk hk32 => ?_⟩
  have hmono : (fromU32 c (BitVec.ofNat 32 j)).toInt ≤ (fromU32 c (BitVec.ofNat 32 k)).toInt :=
    fromU32_mono hc (by rwa [toNat_ofNat_of_lt (by omega), toNat_ofNat_of_lt (by omega)])
  rw [(velcode_toInt hc ha hmax (k := j) (by omega) (by omega)).1,
    (velcode_toInt hc ha hmax (k := k) (by omega) (by omega)).1]
  omega

/-- Settles O47: the quotient is the difference of the codes, and the clamp fits 16 bits. -/
theorem tickIntervalIsClamped : Obligations.TickIntervalIsClamped := by
  intro c vel
  refine ⟨?_, stepTicks_range c vel⟩
  rw [stepTicks, divide_eq_sub, BitVec.toNat_ofNat]
  simp only [Config.minTicks, Config.maxTicks, zext]
  omega

end Sys2Proof.Machine
end

section
/-! One `RCOMP` (R193 to R203): which event it serves, and the state and the entry of each, written out. -/

namespace Sys2Proof.Machine

open Sys2Proof

/-! ## The command behind its port check -/

theorem exec_rcomp_rt {s : State} (hport : s.port = .rt) :
    exec .rcomp s = .next (s.rcomp.1.answer (entryWord true s.rcomp.2)) := by
  rw [exec, execRcomp, s.onPort_allowed .rcomp _ (decide_eq_true hport)]
  rfl

theorem exec_rcomp_congr {s t : State} (hs : s.port = .rt) (ht : t.port = .rt) (h : s.rcomp = t.rcomp) :
    exec .rcomp s = exec .rcomp t := by
  rw [exec_rcomp_rt hs, exec_rcomp_rt ht, h]

/-! ## The events in their order (R193) -/

theorem State.rcomp_of_istop {s : State} (h : s.req.istop = true) : s.rcomp = s.immediateStop := if_pos h

theorem State.rcomp_of_not_istop {s : State} (h : s.req.istop = false) : s.rcomp = s.servePending.advance :=
  if_neg (Bool.eq_false_iff.1 h)

theorem State.servePending_of_incomplete {s : State} (h : s.rw.incomplete = true) :
    s.servePending = s.reconcile.servePending := by
  have hdone : s.reconcile.rw.incomplete = false := rfl
  simp only [State.servePending, h, hdone, if_true, Bool.false_eq_true, if_false]

theorem State.reload_flags (s : State) :
    s.reload.rw.incomplete = s.rw.incomplete ∧ s.reload.rw.reload = false ∧ s.reload.req = s.req := by
  unfold State.reload
  dsimp only
  split <;> exact ⟨rfl, rfl, rfl⟩

theorem State.servePending_of_reload {s : State} (hincomplete : s.rw.incomplete = false) (h : s.rw.reload = true) :
    s.servePending = s.reload.servePending := by
  obtain ⟨hinc, hdone, _⟩ := s.reload_flags
  rw [hincomplete] at hinc
  simp only [State.servePending, hincomplete, h, hinc, hdone, if_true, Bool.false_eq_true, if_false]

theorem State.servePending_of_gstop {s : State} (hincomplete : s.rw.incomplete = false) (hreload : s.rw.reload = false)
    (h : s.req.gstop = true) : s.servePending = s.gracefulStop := by
  simp only [State.servePending, hincomplete, hreload, h, if_true, Bool.false_eq_true, if_false]

theorem State.servePending_of_nothing {s : State} (hincomplete : s.rw.incomplete = false)
    (hreload : s.rw.reload = false) (hgstop : s.req.gstop = false) : s.servePending = s := by
  simp only [State.servePending, hincomplete, hreload, hgstop, Bool.false_eq_true, if_false]

theorem State.rcomp_of_nothingPending {s : State} (h : s.nothingPending) : s.rcomp = s.advance := by
  obtain ⟨histop, hgstop, hincomplete, hreload⟩ := h
  rw [s.rcomp_of_not_istop histop, s.servePending_of_nothing hincomplete hreload hgstop]

/-! ## What each event writes (R194 to R197) -/

theorem State.immediateStop_eq (s : State) :
    s.immediateStop =
      ({ s with
          req := ⟨false, false⟩
          rw := { s.rw with
            phase := .idle, vel := Config.logInvalid, reload := false
            incomplete := if s.rw.phase = .idle then s.rw.incomplete else true } }, s.nullEntry) := by
  refine Prod.ext ?_ rfl
  rw [s.immediateStop_same.eq, s.immediateStop_rw]
  rfl

theorem shiftLeft_one (a : LogValue) : shiftLeft a 1 = a + 512 := shiftLeft_eq_add_wrap16 a 1

/-- The stopping distance is at least 1 (R196). -/
theorem stopSteps_eq (c : Config) (vel : LogValue) (accel : U32) :
    stopSteps c vel accel =
      if toU32 c (square vel - (fromU32 c accel + 512)) = 0 then 1
      else toU32 c (square vel - (fromU32 c accel + 512)) := by
  rw [stopSteps, divide_eq_sub, shiftLeft_one, zext]
  generalize toU32 c (square vel - (fromU32 c accel + 512)) = n
  split
  next h => rw [h]; rfl
  next h =>
    have hn := toNat_ne_zero h
    rw [Nat.max_eq_right (by omega), BitVec.ofNat_toNat, BitVec.setWidth_eq]

theorem State.reload_eq (s : State) :
    s.reload =
      { s with rw := { s.rw with
          reload := false, target := s.ro.target, keep := s.ro.keep, keepDir := s.ro.keepDir
          accel := s.ro.accel, speed := s.ro.speed
          rampSteps :=
            if s.rw.rampSteps ≠ 0 ∧ s.rw.accel ≠ s.ro.accel ∧ s.ro.accel ≠ 0 then stopSteps s.cfg s.rw.vel s.ro.accel
            else s.rw.rampSteps } } := by
  have hmoving : 0 < zext s.rw.rampSteps ↔ s.rw.rampSteps ≠ 0 := by simp [zext, Nat.pos_iff_ne_zero, BitVec.toNat_eq]
  unfold State.reload
  simp only [hmoving]
  split <;> rfl

/-- The position `n` steps on in the direction `dir`, modulo 2^32. -/
def movedBy (x : Position) (dir : Bool) (n : Nat) : Position :=
  if dir then x + BitVec.ofNat 32 n else x - BitVec.ofNat 32 n

theorem movedBy_toNat (x : Position) (dir : Bool) (k : U32) :
    movedBy x dir k.toNat = if dir then x + k else x - k := by
  rw [movedBy, BitVec.ofNat_toNat, BitVec.setWidth_eq]

theorem wrap32_movedBy (x : Position) (dir : Bool) (n : Nat) :
    (if dir then wrap32 (sext x + n) else wrap32 (sext x - n)) = movedBy x dir n := by
  have hup : wrap32 (sext x + n) = x + BitVec.ofNat 32 n := by
    rw [wrap32, sext, BitVec.ofInt_add, BitVec.ofInt_toInt, BitVec.ofInt_natCast]
  have hdown : wrap32 (sext x - n) = x - BitVec.ofNat 32 n := by
    rw [wrap32, sext, Int.sub_eq_add_neg, BitVec.ofInt_add, BitVec.ofInt_neg, BitVec.ofInt_toInt, BitVec.ofInt_natCast,
      BitVec.sub_eq_add_neg]
  rw [hup, hdown, movedBy]

theorem State.gracefulStop_eq (s : State) :
    s.gracefulStop =
      { s with
        req := { s.req with gstop := false }
        rw := { s.rw with keep := false, target := movedBy s.rw.pos s.rw.dir s.rw.rampSteps.toNat } } := by
  rw [← wrap32_movedBy]
  rfl

/-! ## Rest, direction and distance (R198) -/

/-- The displacement from the position to the target, modulo 2^32. -/
def Running.displacement (r : Running) : Int := (r.target - r.pos).toInt

theorem Running.displacement_eq_zero_iff (r : Running) : r.displacement = 0 ↔ r.pos = r.target := by
  rw [Running.displacement, ← BitVec.toInt_zero (w := 32), BitVec.toInt_inj]
  exact sub_eq_zero.trans eq_comm

theorem Running.directionAndDistance_of_keep {r : Running} (h : r.keep = true) :
    r.directionAndDistance = (r.keepDir, .infinite) := if_pos h

theorem Running.directionAndDistance_of_target {r : Running} (h : r.keep = false) :
    r.directionAndDistance =
      (if r.displacement = 0 then r.dir else decide (0 < r.displacement), .steps r.displacement.natAbs) := by
  have hdelta : sext (wrap32 (sext r.target - sext r.pos)) = r.displacement :=
    congrArg BitVec.toInt (wrap32_sub r.target r.pos)
  rw [Running.directionAndDistance, if_neg (Bool.eq_false_iff.1 h), hdelta]
  show (if r.displacement = 0 then _ else if 0 < r.displacement then _ else _) = _
  split_ifs with hzero hpos
  · rw [hzero]; rfl
  · simp [hpos]; omega
  · simp [hpos]; omega

theorem Running.distance_eq_zero_iff (r : Running) :
    r.directionAndDistance.2 = .steps 0 ↔ r.keep = false ∧ r.pos = r.target := by
  cases hkeep : r.keep with
  | true => simp [r.directionAndDistance_of_keep hkeep]
  | false => simp [r.directionAndDistance_of_target hkeep, r.displacement_eq_zero_iff]

theorem State.advance_of_rest {s : State}
    (h : s.rw.accel = 0 ∨ s.rw.speed = 0 ∨ (s.rw.keep = false ∧ s.rw.pos = s.rw.target ∧ s.rw.rampSteps.toNat ≤ 1)) :
    s.advance = s.goIdle := by
  unfold State.advance
  dsimp only
  split_ifs with hnone harrived
  · rfl
  · rfl
  · rw [s.rw.distance_eq_zero_iff] at harrived
    obtain ⟨ha, hv⟩ := not_or.1 hnone
    obtain ⟨hkeep, hpos, hsteps⟩ := (h.resolve_left ha).resolve_left hv
    exact absurd ⟨⟨hkeep, hpos⟩, hsteps⟩ harrived

theorem State.advance_of_move {s : State} (ha : s.rw.accel ≠ 0) (hv : s.rw.speed ≠ 0)
    (h : ¬(s.rw.keep = false ∧ s.rw.pos = s.rw.target ∧ s.rw.rampSteps.toNat ≤ 1)) :
    s.advance = s.takeStep (s.decidePhase s.rw.directionAndDistance.1 s.rw.directionAndDistance.2) := by
  unfold State.advance
  rw [if_neg (not_or.2 ⟨ha, hv⟩), if_neg]
  rw [s.rw.distance_eq_zero_iff]
  exact fun hrest => h ⟨hrest.1.1, hrest.1.2, hrest.2⟩

/-! ## One step (R199 to R203) -/

/-- A step that lands on the target at the lowest velocity ends the ramp (R203). -/
abbrev Running.EndsWith (r : Running) (d : Decision) : Prop :=
  r.keep = false ∧ movedBy r.pos d.dir 1 = r.target ∧ d.sn ≤ 1

theorem State.takeStep_eq (s : State) {d : Decision} (hsn : d.sn < 2 ^ 32) :
    s.takeStep d =
      ({ s with rw := { s.rw with
          dir := d.dir, pos := movedBy s.rw.pos d.dir 1
          phase := if s.rw.EndsWith d then .idle else d.phase
          rampSteps := if s.rw.EndsWith d then 0 else BitVec.ofNat 32 d.sn
          vel := if s.rw.EndsWith d ∨ d.sn = 0 then Config.logInvalid else s.rampVel d.sn } },
        ⟨stepTicks s.cfg (s.rampVel d.k), 1, d.dir, false⟩) := by
  have hstep : (s.takeStep d).1 = s.withRw (Running.settle { s.rw with
      dir := d.dir, pos := movedBy s.rw.pos d.dir 1, phase := d.phase, rampSteps := BitVec.ofNat 32 d.sn
      vel := if d.sn = 0 then Config.logInvalid else s.rampVel d.sn }) := by
    rw [← wrap32_movedBy]
    rfl
  have hcount : zext (BitVec.ofNat 32 d.sn) = d.sn := toNat_ofNat_of_lt hsn
  refine Prod.ext (hstep.trans ?_) rfl
  unfold Running.settle
  dsimp only
  rw [hcount]
  by_cases hend : s.rw.EndsWith d
  · rw [if_pos hend, if_pos hend, if_pos hend, if_pos (Or.inl hend)]
    rfl
  · rw [if_neg hend, if_neg hend, if_neg hend]
    simp only [hend, false_or]
    rfl

theorem State.overLimit_iff (s : State) :
    s.overLimit = true ↔
      2 ≤ s.rw.rampSteps.toNat ∧ s.limitCode.toInt ≤ (velcode s.cfg (s.rw.rampSteps.toNat - 1) s.accCode).toInt :=
  decide_eq_true_iff

/-- R199 with the direction and the distance of R198 written out. -/
theorem State.decidePhase_eq (s : State) :
    s.decidePhase s.rw.directionAndDistance.1 s.rw.directionAndDistance.2 =
      let n := s.rw.rampSteps.toNat
      let delta := s.rw.displacement
      let want := if s.rw.keep then s.rw.keepDir else if delta = 0 then s.rw.dir else decide (0 < delta)
      if n = 0 then ⟨.accelerating, 1, 1, want⟩
      else if s.rw.dir ≠ want ∨ (s.rw.keep = false ∧ delta.natAbs ≤ n) ∨
          (2 ≤ n ∧ s.limitCode.toInt ≤ (velcode s.cfg (n - 1) s.accCode).toInt) then
        ⟨.decelerating, n, n - 1, s.rw.dir⟩
      else if (s.rw.keep = true ∨ n + 2 ≤ delta.natAbs) ∧
          (velcode s.cfg n s.accCode).toInt < s.limitCode.toInt ∧ n < 2 ^ 32 - 1 then
        ⟨.accelerating, n + 1, n + 1, s.rw.dir⟩
      else ⟨.coasting, n, n, s.rw.dir⟩ := by
  unfold State.decidePhase
  cases hkeep : s.rw.keep with
  | true =>
    simp [s.rw.directionAndDistance_of_keep hkeep, s.overLimit_iff, Distance.within,
      Distance.roomToAccelerate, zext, sext]
  | false =>
    simp [s.rw.directionAndDistance_of_target hkeep, s.overLimit_iff, Distance.within,
      Distance.roomToAccelerate, zext, sext]

end Sys2Proof.Machine
end

section
/-! What every `RCOMP` does (R193, R205(a), (b)), the order of the pending events, and `RFILL`, which pushes the entry an
`RCOMP` answers (R89, R90, R181). -/

namespace Sys2Proof.Machine

open Sys2Proof

/-! ## One event served -/

theorem State.rcomp_of_incomplete {s : State} (histop : s.req.istop = false) (h : s.rw.incomplete = true) :
    s.rcomp = s.reconcile.rcomp := by
  rw [State.rcomp_of_not_istop histop, State.servePending_of_incomplete h,
    State.rcomp_of_not_istop (s := s.reconcile) histop]

theorem State.rcomp_of_reload {s : State} (histop : s.req.istop = false) (hincomplete : s.rw.incomplete = false)
    (h : s.rw.reload = true) : s.rcomp = s.reload.rcomp := by
  obtain ⟨_, _, hreq⟩ := s.reload_flags
  rw [State.rcomp_of_not_istop histop, State.servePending_of_reload hincomplete h,
    State.rcomp_of_not_istop (s := s.reload) (by rw [hreq, histop])]

/-- A graceful stop leaves nothing pending behind it. -/
theorem State.gracefulStop_nothingPending {s : State} (histop : s.req.istop = false)
    (hincomplete : s.rw.incomplete = false) (hreload : s.rw.reload = false) : s.gracefulStop.nothingPending :=
  ⟨histop, rfl, hincomplete, hreload⟩

theorem State.rcomp_of_gstop {s : State} (histop : s.req.istop = false) (hincomplete : s.rw.incomplete = false)
    (hreload : s.rw.reload = false) (h : s.req.gstop = true) : s.rcomp = s.gracefulStop.rcomp := by
  rw [State.rcomp_of_not_istop histop, State.servePending_of_gstop hincomplete hreload h,
    State.rcomp_of_nothingPending (State.gracefulStop_nothingPending histop hincomplete hreload)]

theorem State.reload_pos_dir (s : State) : s.reload.rw.pos = s.rw.pos ∧ s.reload.rw.dir = s.rw.dir := by
  rw [s.reload_eq]
  exact ⟨rfl, rfl⟩

/-- The pending events move nothing, and none is pending behind them but an immediate stop. -/
theorem State.servePending_spec (s : State) :
    s.servePending.rw.pos = s.rw.pos ∧ s.servePending.rw.dir = s.rw.dir ∧ s.servePending.rw.reload = false ∧
    s.servePending.req = ⟨false, s.req.istop⟩ := by
  wlog hincomplete : s.rw.incomplete = false generalizing s
  · rw [State.servePending_of_incomplete (by simpa using hincomplete)]
    exact this s.reconcile rfl
  wlog hreload : s.rw.reload = false generalizing s
  · obtain ⟨hinc, hflag, hreq⟩ := s.reload_flags
    obtain ⟨hpos, hdir⟩ := s.reload_pos_dir
    rw [State.servePending_of_reload hincomplete (by simpa using hreload), ← hpos, ← hdir, ← hreq]
    exact this s.reload (hinc.trans hincomplete) hflag
  cases hgstop : s.req.gstop with
  | true =>
    rw [State.servePending_of_gstop hincomplete hreload hgstop]
    exact ⟨rfl, rfl, hreload, rfl⟩
  | false =>
    rw [State.servePending_of_nothing hincomplete hreload hgstop]
    exact ⟨rfl, rfl, hreload, by rw [← hgstop]⟩

/-- What an entry says of the running state it leads to, from the direction and the position before (R205(a), (b)):
the null entry rests the ramp where it is, and a step entry moves it by one. -/
def EntryMoves (dir : Bool) (pos : Position) (e : QueueEntry) (r : Running) : Prop :=
  (e = ⟨0, 0, dir, false⟩ ∧ r.phase = .idle ∧ r.vel = Config.logInvalid ∧ r.pos = pos ∧ r.dir = dir) ∨
  (e.steps = 1 ∧ 1 ≤ e.ticks.toNat ∧ e.pause = false ∧ e.dir = r.dir ∧ r.pos = if e.dir then pos + 1 else pos - 1)

/-- Behind the pending events only `rw` is written: rest, or one step. -/
theorem State.advance_spec (s : State) :
    s.advance.1 = { s with rw := s.advance.1.rw } ∧ s.advance.1.rw.reload = s.rw.reload ∧
    EntryMoves s.rw.dir s.rw.pos s.advance.2 s.advance.1.rw := by
  rcases s.advance_cases with ⟨_, h⟩ | ⟨_, _, _, _, h⟩ | ⟨_, _, _, h⟩
  · rw [h]
    exact ⟨rfl, rfl, .inl ⟨rfl, rfl, rfl, rfl, rfl⟩⟩
  · rw [h]
    exact ⟨rfl, rfl, .inl ⟨rfl, rfl, rfl, rfl, rfl⟩⟩
  · rw [h, State.takeStep_eq s (s.decidePhase_bounds _ _).1]
    exact ⟨rfl, rfl, .inr ⟨rfl, (stepTicks_range _ _).1, rfl, rfl, rfl⟩⟩

/-- What every `RCOMP` does: it writes `rw`, leaves no request and no reload pending, and its entry says whether and
where it moved (R193). -/
theorem State.rcomp_spec (s : State) :
    s.rcomp.1 = { s with rw := s.rcomp.1.rw, req := ⟨false, false⟩ } ∧ s.rcomp.1.rw.reload = false ∧
    EntryMoves s.rw.dir s.rw.pos s.rcomp.2 s.rcomp.1.rw := by
  cases histop : s.req.istop with
  | true =>
    rw [State.rcomp_of_istop histop, s.immediateStop_eq]
    exact ⟨rfl, rfl, .inl ⟨rfl, rfl, rfl, rfl, rfl⟩⟩
  | false =>
    obtain ⟨hpos, hdir, hreload, hreq⟩ := s.servePending_spec
    obtain ⟨hframe, hkeep, hmoves⟩ := s.servePending.advance_spec
    rw [hpos, hdir] at hmoves
    rw [histop] at hreq
    refine ⟨?_, ?_, ?_⟩
    · rw [s.rcomp_same.eq, State.rcomp_of_not_istop histop, hframe, hreq]
    · rw [State.rcomp_of_not_istop histop, hkeep, hreload]
    · rw [State.rcomp_of_not_istop histop]
      exact hmoves

/-! ## `RFILL` (R89, R90) -/

/-- The operand `RFILL` makes of an entry's word is that of the `QPUSH` of the entry: the valid bit is left out, and
the 16 bits of the ticks have four zeros above them (R85). -/
theorem encode_qpush_entry (e : QueueEntry) :
    encode (.qpush (0#4 ++ e.ticks) e.steps e.dir e.pause) = 0x20#8 ++ 0#2 ++ (entryWord true e).extractLsb' 0 30 := by
  have hword : entryWord true e =
      BitVec.ofBool true ++ 0#1 ++ (BitVec.ofBool e.pause ++ BitVec.ofBool e.dir ++ e.steps ++ 0#4 ++ e.ticks) := by
    apply BitVec.eq_of_toNat_eq
    simp only [entryWord, BitVec.toNat_append, Nat.shiftLeft_or_distrib, ← Nat.shiftLeft_add, Nat.or_assoc]
  rw [encode_qpush, hword, BitVec.extractLsb'_append_eq_right]
  apply BitVec.eq_of_toNat_eq
  simp only [BitVec.toNat_append, Nat.shiftLeft_or_distrib, ← Nat.shiftLeft_add, Nat.or_assoc]

/-- A step entry, or the null entry, is within the limits of `QPUSH`, and its displacement is that of the position. -/
theorem EntryMoves.displacement {dir : Bool} {pos : Position} {e : QueueEntry} {r : Running}
    (h : EntryMoves dir pos e r) :
    e.steps.toNat ≤ 127 ∧ r.pos = if e.dir then pos + e.steps.setWidth 32 else pos - e.steps.setWidth 32 := by
  rcases h with ⟨rfl, _, _, hpos, _⟩ | ⟨hsteps, _, _, _, hpos⟩
  · refine ⟨Nat.zero_le _, ?_⟩
    rw [hpos]
    split <;> simp
  · rw [hsteps]
    exact ⟨by decide, hpos⟩

/-- With room in the queue, the `QPUSH` of an entry of at most 127 steps is accepted: 16 bits of ticks are never too
many (R191). -/
theorem exec_qpush_entry {s : State} (hport : s.port = .rt) (hroom : s.isFull = false) {e : QueueEntry}
    (hsteps : e.steps.toNat ≤ 127) :
    exec (.qpush (0#4 ++ e.ticks) e.steps e.dir e.pause) s = .next ((s.pushed e).answer 0) := by
  have hticks : (0#4 ++ e.ticks).toNat = e.ticks.toNat := by rw [BitVec.toNat_append]; simp
  have hlow : (0#4 ++ e.ticks).setWidth 16 = e.ticks := by
    apply BitVec.eq_of_toNat_eq
    rw [BitVec.toNat_setWidth, hticks, Nat.mod_eq_of_lt e.ticks.isLt]
  have hmax : ¬65535 < (0#4 ++ e.ticks).toNat := by omega
  rw [exec_qpush_rt hport, if_neg (Bool.eq_false_iff.1 hroom), if_neg hmax, if_neg (Nat.not_lt.2 hsteps), hlow]

/-! ## The obligations -/

/-- Settles O48: the frame and the two kinds of entry. -/
theorem rcompAlwaysAnswersAnEntry : Obligations.RcompAlwaysAnswersAnEntry := by
  intro s
  refine ⟨decode_rcompCommand, fun hport => exec_refused _ s (decide_eq_false hport), fun hport => ?_⟩
  obtain ⟨hframe, hreload, hmoves⟩ := s.rcomp_spec
  exact ⟨s.rcomp.1.rw, s.rcomp.2, by rw [exec_rcomp_rt hport, ← hframe], hreload, hmoves⟩

/-- Settles O52: the decision written out, and the step as decided. -/
theorem rcompTakesOneStepAlongTheRamp : Obligations.RcompTakesOneStepAlongTheRamp := by
  intro s hport hpending ha hv hgo
  have hbound := (s.decidePhase_bounds s.rw.directionAndDistance.1 s.rw.directionAndDistance.2).1
  rw [exec_rcomp_rt hport, State.rcomp_of_nothingPending hpending, State.advance_of_move ha hv hgo,
    State.takeStep_eq s hbound, s.decidePhase_eq]
  rfl

/-- Settles O51: either reason to rest ends in `go_idle`. -/
theorem rcompRestsWhenThereIsNothingToDo : Obligations.RcompRestsWhenThereIsNothingToDo := by
  intro s hport hpending hrest
  rw [exec_rcomp_rt hport, State.rcomp_of_nothingPending hpending, State.advance_of_rest hrest]
  rfl

/-- Settles O49: the one event that leaves the position and the ramp steps stale. -/
theorem immediateStopNullsTheNextEntry : Obligations.ImmediateStopNullsTheNextEntry := by
  intro s hport histop
  rw [exec_rcomp_rt hport, State.rcomp_of_istop histop, s.immediateStop_eq]
  rfl

/-- Settles O50: each event, once served, is pending no more, so `RCOMP` goes on as from the state it leaves. -/
theorem pendingEventsAreServedInOrder : Obligations.PendingEventsAreServedInOrder := by
  intro s hport histop
  refine ⟨fun hinc => exec_rcomp_congr hport hport (State.rcomp_of_incomplete histop hinc),
    fun hinc hreload => ?_, fun hinc hreload hgstop => ?_⟩
  · have hstop := stopSteps_eq s.cfg s.rw.vel s.ro.accel
    dsimp only
    rw [← hstop, ← s.reload_eq]
    exact exec_rcomp_congr hport (s.reload_same.port.trans hport) (State.rcomp_of_reload histop hinc hreload)
  · rw [← movedBy_toNat, ← s.gracefulStop_eq]
    exact exec_rcomp_congr hport hport (State.rcomp_of_gstop histop hinc hreload hgstop)

/-- Settles O53: the entry is within the limits of `QPUSH`, and both position counts move by its displacement. -/
theorem rfillKeepsBothPositionCountsTogether : Obligations.RfillKeepsBothPositionCountsTogether := by
  intro s hport hroom hend
  obtain ⟨_, _, hmoves⟩ := s.rcomp_spec
  obtain ⟨hsteps, hpos⟩ := hmoves.displacement
  obtain ⟨hcfg, _, _, hcq, hrt, _, houtbox⟩ := s.rcomp_same
  have hroom' : s.rcomp.1.isFull = false := by rw [State.isFull, hcfg, hcq]; exact hroom
  have hend' : s.rcomp.1.qend = s.rw.pos := by rw [← hend]; exact s.qend_congr _ (by rw [hcq]) (by rw [hcq])
  refine ⟨_, ((s.rcomp.1.answer (entryWord true s.rcomp.2)).pushed s.rcomp.2).answer 0, _, _, exec_rcomp_rt hport, ?_,
    decode_of_encode (encode_qpush_entry s.rcomp.2),
    exec_qpush_entry (s := s.rcomp.1.answer _) (hrt.trans hport) hroom' hsteps, ?_, ?_, rfl, ?_⟩
  · rw [State.answer_outbox, houtbox, hrt, hport]
  · rw [State.answer_outbox, ← hport, ← hrt]
    rfl
  · show (s.rcomp.1.cq.writeIdx + 1) % s.rcomp.1.cfg.cqSlots = _
    rw [hcq, hcfg]
    rfl
  · show (State.pushed (s.rcomp.1.answer _) s.rcomp.2).qend = s.rcomp.1.rw.pos
    rw [State.pushed_qend, hpos, ← hend']
    rfl

end Sys2Proof.Machine
end

section
/-! Runs of `RCOMP`s (R205): the states of the sequencer along such a run, and what the `RCOMP`s of one motion keep. -/

namespace Sys2Proof.Machine

open Sys2Proof

/-! ## The run as an iteration of the sequencer's transition -/

/-- The state the sequencer is in after `n` `RCOMP`s. -/
def State.sequenced (s : State) (n : Nat) : State := (fun s => s.rcomp.1)^[n] s

theorem State.sequenced_succ (s : State) (n : Nat) : s.sequenced (n + 1) = (s.sequenced n).rcomp.1 :=
  Function.iterate_succ_apply' _ n s

theorem State.sequenced_succ' (s : State) (n : Nat) : s.sequenced (n + 1) = s.rcomp.1.sequenced n := rfl

theorem SameSequencer.sequenced {s t : State} (h : SameSequencer s t) (n : Nat) :
    SameSequencer (s.sequenced n) (t.sequenced n) := by
  induction n with
  | zero => exact h
  | succ n ih =>
    rw [s.sequenced_succ, t.sequenced_succ]
    exact ih.rcomp.1

theorem SameSequencer.trans {s t u : State} (h : SameSequencer s t) (k : SameSequencer t u) : SameSequencer s u :=
  ⟨k.cfg.trans h.cfg, k.ro.trans h.ro, k.rw.trans h.rw, k.req.trans h.req⟩

/-- The state after one `RCOMP` with `n` more presented. -/
def State.answered (s : State) (n : Nat) : State :=
  (s.take rcompCommand (List.replicate n rcompCommand)).rcomp.1.answer
    (entryWord true (s.take rcompCommand (List.replicate n rcompCommand)).rcomp.2)

theorem rcompRun_succ_iff (n : Nat) (s t : State) : RcompRun (n + 1) s t ↔ RcompRun n (s.answered n) t := by
  have hinbox : (s.answered n).inbox = List.replicate n rcompCommand :=
    (s.take rcompCommand (List.replicate n rcompCommand)).rcomp_same.inbox
  have hpresented : { s.answered n with inbox := List.replicate n rcompCommand } = s.answered n := by rw [← hinbox]
  rw [rcompRun_succ, RcompRun, hpresented]
  rfl

/-- Taking and answering the command touch nothing that the sequencer reads. -/
theorem State.answered_sameSequencer (s : State) (n : Nat) : SameSequencer s.rcomp.1 (s.answered n) := by
  have htake : SameSequencer s (s.take rcompCommand (List.replicate n rcompCommand)) := ⟨rfl, rfl, rfl, rfl⟩
  obtain ⟨⟨hcfg, hro, hrw, hreq⟩, _⟩ := htake.rcomp
  exact ⟨hcfg, hro, hrw, hreq⟩

theorem RcompRun.sameSequencer {n : Nat} {s t : State} (h : RcompRun n s t) : SameSequencer (s.sequenced n) t := by
  induction n generalizing s with
  | zero =>
    rw [(rcompRun_zero s t).1 h]
    exact ⟨rfl, rfl, rfl, rfl⟩
  | succ n ih =>
    rw [s.sequenced_succ']
    exact ((s.answered_sameSequencer n).sequenced n).trans (ih ((rcompRun_succ_iff n s t).1 h))

theorem RcompRun.rw_eq {n : Nat} {s t : State} (h : RcompRun n s t) : t.rw = (s.sequenced n).rw := h.sameSequencer.rw

/-- A statement about `rw` after `n` `RCOMP`s is one about the sequencer's state. -/
theorem exists_rcompRun {n : Nat} {s : State} {P : Running → Prop} (h : P (s.sequenced n).rw) :
    ∃ t, RcompRun n s t ∧ P t.rw := by
  obtain ⟨t, ht⟩ := rcompRun_exists n s
  exact ⟨t, ht, ht.rw_eq ▸ h⟩

/-! ## What the `RCOMP`s of one motion keep -/

/-- Two states of one motion: the same parameters, target and limits in effect, and the same events pending. -/
structure SameCourse (s t : State) : Prop where
  cfg : t.cfg = s.cfg
  req : t.req = s.req
  target : t.rw.target = s.rw.target
  keep : t.rw.keep = s.rw.keep
  accel : t.rw.accel = s.rw.accel
  speed : t.rw.speed = s.rw.speed
  incomplete : t.rw.incomplete = s.rw.incomplete
  reload : t.rw.reload = s.rw.reload

section
variable {s t : State} (h : SameCourse s t)
include h

theorem SameCourse.trans {u : State} (k : SameCourse t u) : SameCourse s u :=
  ⟨k.cfg.trans h.cfg, k.req.trans h.req, k.target.trans h.target, k.keep.trans h.keep, k.accel.trans h.accel,
    k.speed.trans h.speed, k.incomplete.trans h.incomplete, k.reload.trans h.reload⟩

theorem SameCourse.nothingPending (hs : s.nothingPending) : t.nothingPending := by
  rwa [State.nothingPending, h.req, h.incomplete, h.reload]

theorem SameCourse.hasTarget (hs : s.hasTarget) : t.hasTarget := by
  rwa [State.hasTarget, h.keep, h.accel, h.speed]

theorem SameCourse.velcode (k : Nat) : velcode t.cfg k t.accCode = velcode s.cfg k s.accCode := by
  rw [State.accCode, State.accCode, h.cfg, h.accel]

theorem SameCourse.limitCode : t.limitCode = s.limitCode := by
  rw [State.limitCode, State.limitCode, h.cfg, h.speed]

end

theorem State.rcomp_sameCourse {s : State} (h : s.nothingPending) : SameCourse s s.rcomp.1 := by
  rw [State.rcomp_of_nothingPending h]
  rcases s.advance_cases with ⟨_, hrest⟩ | ⟨_, _, _, _, hrest⟩ | ⟨_, _, _, hstep⟩
  · rw [hrest]
    exact ⟨rfl, rfl, rfl, rfl, rfl, rfl, rfl, rfl⟩
  · rw [hrest]
    exact ⟨rfl, rfl, rfl, rfl, rfl, rfl, rfl, rfl⟩
  · rw [hstep, State.takeStep_eq s (s.decidePhase_bounds _ _).1]
    exact ⟨rfl, rfl, rfl, rfl, rfl, rfl, rfl, rfl⟩

theorem State.sequenced_sameCourse {s : State} (h : s.nothingPending) (n : Nat) : SameCourse s (s.sequenced n) := by
  induction n with
  | zero => exact ⟨rfl, rfl, rfl, rfl, rfl, rfl, rfl, rfl⟩
  | succ n ih =>
    rw [s.sequenced_succ]
    exact ih.trans (State.rcomp_sameCourse (ih.nothingPending h))

/-! ## Rest (R198, R203) -/

/-- At rest with nothing pending, `RCOMP` answers the null entry and writes nothing. -/
theorem State.rcomp_of_atRest {s : State} (hpending : s.nothingPending) (hkeep : s.rw.keep = false)
    (hrest : s.atRest) : s.rcomp = (s, s.nullEntry) := by
  obtain ⟨hphase, hvel, hsteps, hpos⟩ := hrest
  have hidle : s.goIdle = (s, s.nullEntry) := by rw [State.goIdle, ← hphase, ← hvel, ← hsteps]; rfl
  rw [State.rcomp_of_nothingPending hpending, State.advance_of_rest (.inr (.inr ⟨hkeep, hpos, by rw [hsteps]; decide⟩)),
    hidle]

/-- The response that carries the null entry (R192, R81). -/
def State.nullResponse (s : State) : Response := ⟨.rt, .ok, entryWord true s.nullEntry⟩

theorem State.answered_of_atRest (m : Nat) {t : State} (hpending : t.nothingPending) (hkeep : t.rw.keep = false)
    (hrest : t.atRest) :
    t.answered m =
      { t with port := .rt, inbox := List.replicate m rcompCommand, outbox := t.outbox ++ [t.nullResponse] } := by
  rw [State.answered, State.rcomp_of_atRest (s := t.take _ _) hpending hkeep hrest]
  rfl

/-- However many `RCOMP`s follow, a ramp at rest answers each of them with the null entry and stays as it is. -/
theorem rcompRun_of_atRest (m : Nat) {t : State} (hpending : t.nothingPending) (hkeep : t.rw.keep = false)
    (hrest : t.atRest) :
    RcompRun m { t with port := .rt }
      { t with port := .rt, inbox := [], outbox := t.outbox ++ List.replicate m t.nullResponse } := by
  induction m generalizing t with
  | zero => rw [rcompRun_zero, List.replicate_zero, List.append_nil]
  | succ m ih =>
    have hout : t.outbox ++ List.replicate (m + 1) t.nullResponse =
        t.outbox ++ [t.nullResponse] ++ List.replicate m t.nullResponse := List.append_cons ..
    rw [rcompRun_succ_iff, State.answered_of_atRest (t := { t with port := .rt }) m hpending hkeep hrest, hout]
    exact ih (t := { t with inbox := List.replicate m rcompCommand, outbox := t.outbox ++ [t.nullResponse] })
      hpending hkeep hrest

end Sys2Proof.Machine
end

section
/-! The way to a fixed target (R198 to R203): each `RCOMP` of a motion is one step in the direction decided, and a step
towards the target brings it one nearer. -/

namespace Sys2Proof.Machine

open Sys2Proof

/-! ## The distance to the target (R198) -/

theorem movedBy_zero (x : Position) (dir : Bool) : movedBy x dir 0 = x := by
  cases dir <;> simp [movedBy]

theorem movedBy_succ (x : Position) (dir : Bool) (n : Nat) : movedBy (movedBy x dir n) dir 1 = movedBy x dir (n + 1) := by
  cases dir
  · simp [movedBy, BitVec.ofNat_add, sub_sub]
  · simp [movedBy, BitVec.ofNat_add, add_assoc]

theorem Running.displacement_natAbs_le (r : Running) : r.displacement.natAbs ≤ 2 ^ 31 := by
  have hlo := BitVec.le_toInt (r.target - r.pos)
  have hhi := BitVec.toInt_lt (x := r.target - r.pos)
  unfold Running.displacement
  omega

theorem toInt_add_one {d : Position} (h : d.toInt < 0) : (d + 1).toInt = d.toInt + 1 := by
  have hlo := BitVec.le_toInt d
  rw [BitVec.toInt_add, show (1 : Position).toInt = 1 from rfl, Int.bmod_eq_of_le] <;> omega

theorem toInt_sub_one {d : Position} (h : 0 < d.toInt) : (d - 1).toInt = d.toInt - 1 := by
  have hhi := BitVec.toInt_lt (x := d)
  rw [BitVec.toInt_sub, show (1 : Position).toInt = 1 from rfl, Int.bmod_eq_of_le] <;> omega

theorem Running.course_le {r : Running} (hkeep : r.keep = false) {dir : Bool} {n : Nat}
    (hcourse : r.directionAndDistance = (dir, .steps n)) : n ≤ 2 ^ 31 := by
  rw [r.directionAndDistance_of_target hkeep] at hcourse
  have hdist := Distance.steps.inj (congrArg Prod.snd hcourse)
  exact hdist ▸ r.displacement_natAbs_le

/-- A step in the direction of the target brings it one nearer: the distance does not wrap, at 2^31 neither. -/
theorem Running.course_step {r r' : Running} {dir : Bool} {n : Nat} (hkeep : r.keep = false)
    (hcourse : r.directionAndDistance = (dir, .steps (n + 1))) (hkeep' : r'.keep = false)
    (htarget : r'.target = r.target) (hpos : r'.pos = movedBy r.pos dir 1) (hdir : r'.dir = dir) :
    r'.directionAndDistance = (dir, .steps n) := by
  rw [r.directionAndDistance_of_target hkeep, Prod.mk.injEq, Distance.steps.injEq] at hcourse
  obtain ⟨hwant, hdist⟩ := hcourse
  rw [if_neg (by omega)] at hwant
  rw [r'.directionAndDistance_of_target hkeep', hdir]
  unfold Running.displacement at *
  rw [htarget, hpos]
  cases dir with
  | false =>
    have hneg := of_decide_eq_false hwant
    have hnear : r.target - movedBy r.pos false 1 = r.target - r.pos + 1 :=
      (sub_sub_eq_add_sub ..).trans (add_sub_right_comm ..)
    rw [hnear, toInt_add_one (by omega)]
    refine Prod.ext ?_ (congrArg Distance.steps (by omega))
    dsimp only
    split
    · rfl
    · exact decide_eq_false (by omega)
  | true =>
    have hpos := of_decide_eq_true hwant
    have hnear : r.target - movedBy r.pos true 1 = r.target - r.pos - 1 := sub_add_eq_sub_sub ..
    rw [hnear, toInt_sub_one hpos]
    refine Prod.ext ?_ (congrArg Distance.steps (by omega))
    dsimp only
    split
    · rfl
    · exact decide_eq_true (by omega)

/-! ## The step as decided (R199, R201, R203) -/

/-- What a step leaves: the ramp at rest when it ends there, else the phase and the ramp steps decided. -/
theorem State.rcomp_moves {s : State} (hpending : s.nothingPending) (htarget : s.hasTarget)
    (hgo : ¬(s.rw.pos = s.rw.target ∧ s.rw.rampSteps.toNat ≤ 1)) {want : Bool} {dist : Distance}
    (hcourse : s.rw.directionAndDistance = (want, dist)) {d : Decision} (hd : s.decidePhase want dist = d) :
    s.rcomp.1.rw.dir = d.dir ∧ s.rcomp.1.rw.pos = movedBy s.rw.pos d.dir 1 ∧
    (s.rw.EndsWith d → s.rcomp.1.atRest) ∧
    (¬s.rw.EndsWith d → s.rcomp.1.rw.phase = d.phase ∧ s.rcomp.1.rw.rampSteps.toNat = d.sn) := by
  obtain ⟨_, ha, hv⟩ := htarget
  have hsn : d.sn < 2 ^ 32 := hd ▸ (s.decidePhase_bounds _ _).1
  rw [State.rcomp_of_nothingPending hpending, State.advance_of_move ha hv fun h => hgo h.2, hcourse, hd,
    s.takeStep_eq hsn]
  refine ⟨rfl, rfl, fun hend => ?_, fun hend => ?_⟩
  · exact ⟨if_pos hend, if_pos (.inl hend), if_pos hend, hend.2.1⟩
  · refine ⟨if_neg hend, ?_⟩
    dsimp only
    rw [if_neg hend, toNat_ofNat_of_lt hsn]

/-- A step in the direction of the target, `r + 1` steps away: it is `r` steps away after it. -/
theorem State.rcomp_towards {s : State} (hpending : s.nothingPending) (htarget : s.hasTarget) {want : Bool} {r : Nat}
    (hcourse : s.rw.directionAndDistance = (want, .steps (r + 1))) {d : Decision}
    (hd : s.decidePhase want (.steps (r + 1)) = d) (hdir : d.dir = want) :
    s.rcomp.1.rw.dir = want ∧ s.rcomp.1.rw.pos = movedBy s.rw.pos want 1 ∧
    s.rcomp.1.rw.directionAndDistance = (want, .steps r) ∧
    (r = 0 → d.sn ≤ 1 → s.rcomp.1.atRest) ∧
    (r ≠ 0 → s.rcomp.1.rw.phase = d.phase ∧ s.rcomp.1.rw.rampSteps.toNat = d.sn) := by
  have hkeep := htarget.1
  have hsame := State.rcomp_sameCourse hpending
  have haway : s.rw.pos ≠ s.rw.target := fun h => by
    have hzero := s.rw.distance_eq_zero_iff.2 ⟨hkeep, h⟩
    rw [hcourse] at hzero
    exact absurd (Distance.steps.inj hzero) (Nat.succ_ne_zero r)
  obtain ⟨hdir', hpos, hends, hgoes⟩ := State.rcomp_moves hpending htarget (fun h => haway h.1) hcourse hd
  rw [hdir] at hdir' hpos
  have hcourse' := Running.course_step hkeep hcourse (hsame.keep.trans hkeep) hsame.target hpos hdir'
  have harrived : movedBy s.rw.pos d.dir 1 = s.rw.target ↔ r = 0 := by
    have hiff := s.rcomp.1.rw.distance_eq_zero_iff
    rw [hcourse', hsame.keep, hsame.target, hpos, Distance.steps.injEq] at hiff
    rw [hdir, hiff]
    exact ⟨fun h => ⟨hkeep, h⟩, And.right⟩
  exact ⟨hdir', hpos, hcourse', fun hr hsn => hends ⟨hkeep, harrived.2 hr, hsn⟩,
    fun hr => hgoes fun hend => hr (harrived.1 hend.2.1)⟩

/-! ## The decisions of a fixed-target ramp (R199) -/

theorem State.decidePhase_of_rest {s : State} (h : s.rw.rampSteps.toNat = 0) (want : Bool) (dist : Distance) :
    s.decidePhase want dist = ⟨.accelerating, 1, 1, want⟩ := if_pos h

/-- Towards a target ahead the ramp step count never reaches its greatest value, so it bounds no acceleration. -/
theorem State.decidePhase_ahead {s : State} {n r : Nat} (hsteps : s.rw.rampSteps.toNat = n) (hn : n ≠ 0)
    (hr : r ≤ 2 ^ 31) :
    s.decidePhase s.rw.dir (.steps r) =
      if r ≤ n ∨ (2 ≤ n ∧ s.limitCode.toInt ≤ (velcode s.cfg (n - 1) s.accCode).toInt) then
        ⟨.decelerating, n, n - 1, s.rw.dir⟩
      else if n + 2 ≤ r ∧ (velcode s.cfg n s.accCode).toInt < s.limitCode.toInt then
        ⟨.accelerating, n + 1, n + 1, s.rw.dir⟩
      else ⟨.coasting, n, n, s.rw.dir⟩ := by
  have hover := s.overLimit_iff
  rw [hsteps] at hover
  have hroom : n + 2 ≤ r ∧ sext (velcode s.cfg n s.accCode) < sext s.limitCode ∧ n < 2 ^ 32 - 1 ↔
      n + 2 ≤ r ∧ (velcode s.cfg n s.accCode).toInt < s.limitCode.toInt := by
    unfold sext
    omega
  simp only [State.decidePhase, zext, hsteps, if_neg hn, ne_eq, not_true_eq_false, false_or, Distance.within,
    Distance.roomToAccelerate, decide_eq_true_eq, hover, hroom]

end Sys2Proof.Machine
end

section
/-! Coming to rest (R203, R205(d)): a ramp that moves towards its target with no more ramp steps than are left to go
ends on it, and every other one gives its ramp steps up one by one. -/

namespace Sys2Proof.Machine

open Sys2Proof

/-- Towards a target `r + 1` steps ahead, with no more ramp steps than that, no more than `r` are left for the `r` steps
after this one, and none only when this one is the last. -/
theorem State.decidePhase_ahead_fits {s : State} {n r : Nat} (hsteps : s.rw.rampSteps.toNat = n) (hn : n ≠ 0)
    (hnr : n ≤ r + 1) (hr : r + 1 ≤ 2 ^ 31) :
    (s.decidePhase s.rw.dir (.steps (r + 1))).dir = s.rw.dir ∧
    (s.decidePhase s.rw.dir (.steps (r + 1))).sn ≤ r ∧
    (r ≠ 0 → (s.decidePhase s.rw.dir (.steps (r + 1))).sn ≠ 0) := by
  rw [State.decidePhase_ahead hsteps hn hr]
  split_ifs with hdown hup
  · refine ⟨rfl, ?_, ?_⟩ <;> dsimp only <;> omega
  · refine ⟨rfl, ?_, ?_⟩ <;> dsimp only <;> omega
  · refine ⟨rfl, ?_, ?_⟩ <;> dsimp only <;> omega

/-- A ramp on its way to a target `r` steps ahead, with at most `r` ramp steps, rests on it after `r` `RCOMP`s. -/
theorem State.rests_ahead {r : Nat} {s : State} (hpending : s.nothingPending) (htarget : s.hasTarget)
    (hcourse : s.rw.directionAndDistance = (s.rw.dir, .steps r)) (hmoving : s.rw.rampSteps.toNat ≠ 0)
    (hfits : s.rw.rampSteps.toNat ≤ r) : (s.sequenced r).atRest := by
  induction r generalizing s with
  | zero => exact absurd (Nat.le_zero.1 hfits) hmoving
  | succ r ih =>
    have hsame := State.rcomp_sameCourse hpending
    obtain ⟨hd, hsn, hsn0⟩ := State.decidePhase_ahead_fits rfl hmoving hfits (Running.course_le htarget.1 hcourse)
    obtain ⟨hdir, _, hcourse', hrest, hgo⟩ := State.rcomp_towards hpending htarget hcourse rfl hd
    rw [s.sequenced_succ']
    by_cases hr : r = 0
    · subst hr
      exact hrest rfl (by omega)
    · obtain ⟨_, hsteps⟩ := hgo hr
      exact ih (hsame.nothingPending hpending) (hsame.hasTarget htarget) (hdir ▸ hcourse')
        (by rw [hsteps]; exact hsn0 hr) (by rw [hsteps]; exact hsn)

/-- From rest, a target away: the first step is at ramp step 1, and the ramp is on its way. -/
theorem State.rests_from_rest {s : State} (hpending : s.nothingPending) (htarget : s.hasTarget)
    (hzero : s.rw.rampSteps.toNat = 0) {want : Bool} {r : Nat}
    (hcourse : s.rw.directionAndDistance = (want, .steps (r + 1))) : (s.sequenced (r + 1)).atRest := by
  have hsame := State.rcomp_sameCourse hpending
  obtain ⟨hdir, _, hcourse', hrest, hgo⟩ :=
    State.rcomp_towards hpending htarget hcourse (State.decidePhase_of_rest hzero want _) rfl
  rw [s.sequenced_succ']
  by_cases hr : r = 0
  · subst hr
    exact hrest rfl le_rfl
  · obtain ⟨_, hsteps⟩ := hgo hr
    dsimp only at hsteps
    exact State.rests_ahead (hsame.nothingPending hpending) (hsame.hasTarget htarget) (hdir ▸ hcourse')
      (by omega) (by omega)

/-- On the target with at most one ramp step, the next `RCOMP` rests. -/
theorem State.rests_on_target {s : State} (hpending : s.nothingPending) (hkeep : s.rw.keep = false)
    (hpos : s.rw.pos = s.rw.target) (hsteps : s.rw.rampSteps.toNat ≤ 1) : (s.sequenced 1).atRest := by
  rw [s.sequenced_succ', State.rcomp_of_nothingPending hpending, State.advance_of_rest (.inr (.inr ⟨hkeep, hpos, hsteps⟩))]
  exact ⟨rfl, rfl, rfl, hpos⟩

/-- Moving away from the target, or too fast to stop on it, the ramp gives up a ramp step (R199). -/
theorem State.decidePhase_of_wrong_way {s : State} {want : Bool} {r : Nat} (hn : s.rw.rampSteps.toNat ≠ 0)
    (h : s.rw.dir ≠ want ∨ r ≤ s.rw.rampSteps.toNat) :
    s.decidePhase want (.steps r) = ⟨.decelerating, s.rw.rampSteps.toNat, s.rw.rampSteps.toNat - 1, s.rw.dir⟩ := by
  unfold State.decidePhase zext
  rw [if_neg hn, if_pos]
  exact h.imp_right fun hr => .inl (decide_eq_true hr)

theorem State.hasTarget.course {s : State} (h : s.hasTarget) :
    ∃ want r, s.rw.directionAndDistance = (want, .steps r) :=
  ⟨_, _, Running.directionAndDistance_of_target h.1⟩

/-- From wherever it is, a fixed-target ramp comes to rest, by induction on its ramp steps. -/
theorem State.exists_rest {n : Nat} {s : State} (hpending : s.nothingPending) (htarget : s.hasTarget)
    (hsteps : s.rw.rampSteps.toNat = n) : ∃ m, (s.sequenced m).atRest := by
  induction n generalizing s with
  | zero =>
    obtain ⟨want, r, hcourse⟩ := htarget.course
    cases r with
    | zero =>
      obtain ⟨_, hpos⟩ := s.rw.distance_eq_zero_iff.1 (congrArg Prod.snd hcourse)
      exact ⟨1, State.rests_on_target hpending htarget.1 hpos (by omega)⟩
    | succ r => exact ⟨r + 1, State.rests_from_rest hpending htarget hsteps hcourse⟩
  | succ n ih =>
    obtain ⟨want, r, hcourse⟩ := htarget.course
    by_cases hstop : s.rw.pos = s.rw.target ∧ s.rw.rampSteps.toNat ≤ 1
    · exact ⟨1, State.rests_on_target hpending htarget.1 hstop.1 hstop.2⟩
    by_cases hwrong : s.rw.dir ≠ want ∨ r ≤ s.rw.rampSteps.toNat
    · have hd := State.decidePhase_of_wrong_way (by omega) hwrong
      obtain ⟨_, _, hrest, hgo⟩ := State.rcomp_moves hpending htarget hstop hcourse hd
      by_cases hend : s.rw.EndsWith ⟨.decelerating, s.rw.rampSteps.toNat, s.rw.rampSteps.toNat - 1, s.rw.dir⟩
      · exact ⟨1, hrest hend⟩
      · have hsame := State.rcomp_sameCourse hpending
        obtain ⟨_, hdown⟩ := hgo hend
        obtain ⟨m, hm⟩ := ih (hsame.nothingPending hpending) (hsame.hasTarget htarget) (by rw [hdown]; dsimp only; omega)
        exact ⟨m + 1, hm⟩
    · obtain ⟨hdir, hfar⟩ := not_or.1 hwrong
      rw [← not_not.1 hdir] at hcourse
      exact ⟨r, State.rests_ahead hpending htarget hcourse (by omega) (by omega)⟩

/-- Settles O59: the ramp comes to rest, and nothing that would move it again is pending. -/
theorem everyFixedTargetRampComesToRest : Obligations.EveryFixedTargetRampComesToRest := by
  intro s hpending htarget
  obtain ⟨n, hn⟩ := State.exists_rest hpending htarget rfl
  obtain ⟨t, ht⟩ := rcompRun_exists n s
  have hsame := State.sequenced_sameCourse hpending n
  have hkeep : t.rw.keep = false := by rw [ht.rw_eq, hsame.keep, htarget.1]
  have hpending' : t.nothingPending := by
    have hseq := hsame.nothingPending hpending
    rwa [State.nothingPending, ← ht.sameSequencer.req, ← ht.rw_eq] at hseq
  have hrest : t.atRest := by rwa [State.atRest, ← ht.rw_eq] at hn
  exact ⟨n, t, ht, hrest, by rw [ht.rw_eq, hsame.target], fun m => rcompRun_of_atRest m hpending' hkeep hrest⟩

/-! ## A graceful stop (R197) -/

/-- As many ramp steps as steps to go: a decelerating entry, and as many of each after it (R199). -/
theorem State.rcomp_braking {k : Nat} {s : State} (hpending : s.nothingPending) (htarget : s.hasTarget)
    (hcourse : s.rw.directionAndDistance = (s.rw.dir, .steps (k + 1))) (hsteps : s.rw.rampSteps.toNat = k + 1)
    (hk : k ≠ 0) :
    s.rcomp.1.rw.phase = .decelerating ∧ s.rcomp.1.rw.directionAndDistance = (s.rcomp.1.rw.dir, .steps k) ∧
    s.rcomp.1.rw.rampSteps.toNat = k := by
  have hd := State.decidePhase_of_wrong_way (want := s.rw.dir) (by omega) (.inr hsteps.ge)
  obtain ⟨hdir, _, hcourse', _, hgo⟩ := State.rcomp_towards hpending htarget hcourse hd rfl
  obtain ⟨hphase, hdown⟩ := hgo hk
  exact ⟨hphase, hdir ▸ hcourse', by rw [hdown, hsteps]; rfl⟩

theorem State.brakes {m k : Nat} {s : State} (hpending : s.nothingPending) (htarget : s.hasTarget)
    (hcourse : s.rw.directionAndDistance = (s.rw.dir, .steps k)) (hsteps : s.rw.rampSteps.toNat = k) (hm : m + 1 < k) :
    (s.sequenced (m + 1)).rw.phase = .decelerating := by
  induction m generalizing s k with
  | zero =>
    obtain ⟨r, rfl⟩ := Nat.exists_eq_add_of_le' hm.le
    exact (State.rcomp_braking hpending htarget hcourse hsteps (by omega)).1
  | succ m ih =>
    obtain ⟨r, rfl⟩ : ∃ r, k = r + 1 := ⟨k - 1, by omega⟩
    obtain ⟨_, hcourse', hsteps'⟩ := State.rcomp_braking hpending htarget hcourse hsteps (by omega)
    have hsame := State.rcomp_sameCourse hpending
    exact ih (hsame.nothingPending hpending) (hsame.hasTarget htarget) hcourse' hsteps' (by omega)

theorem Running.course_of_movedBy {r : Running} (hkeep : r.keep = false) {k : Nat} (hk : 1 ≤ k) (hk31 : k < 2 ^ 31)
    (htarget : r.target = movedBy r.pos r.dir k) : r.directionAndDistance = (r.dir, .steps k) := by
  have hkn : (BitVec.ofNat 32 k).toInt = k := by
    rw [BitVec.toInt_eq_toNat_of_lt] <;> rw [toNat_ofNat_of_lt] <;> omega
  rw [r.directionAndDistance_of_target hkeep]
  have hdelta : r.displacement = if r.dir then (k : Int) else -k := by
    rw [Running.displacement, htarget, movedBy]
    split
    · rw [add_sub_cancel_left, hkn]
    · rw [sub_sub_cancel_left, BitVec.toInt_neg, hkn, Int.bmod_eq_of_le] <;> omega
  cases hdir : r.dir with
  | true =>
    rw [hdir, if_pos rfl] at hdelta
    rw [hdelta, if_neg (by omega), decide_eq_true (by omega)]
    rfl
  | false =>
    rw [hdir, if_neg (by decide)] at hdelta
    rw [hdelta, if_neg (by omega), decide_eq_false (by omega)]
    exact congrArg _ (by simp)

/-- Settles O60: a graceful stop makes the target as many steps ahead as there are ramp steps. -/
theorem aGracefulStopRestsAfterTheStoppingDistance : Obligations.AGracefulStopRestsAfterTheStoppingDistance := by
  intro s histop hincomplete hreload hgstop ha hv hk hk31
  have hrcomp := State.rcomp_of_gstop histop hincomplete hreload hgstop
  have hpending := State.gracefulStop_nothingPending histop hincomplete hreload
  have htarget : s.gracefulStop.hasTarget := ⟨rfl, ha, hv⟩
  have hahead : s.gracefulStop.rw.target = movedBy s.rw.pos s.rw.dir s.rw.rampSteps.toNat := by rw [s.gracefulStop_eq]
  have hcourse : s.gracefulStop.rw.directionAndDistance = (s.rw.dir, .steps s.rw.rampSteps.toNat) :=
    Running.course_of_movedBy rfl hk hk31 hahead
  have hsequenced {n : Nat} (hn : 1 ≤ n) : s.sequenced n = s.gracefulStop.sequenced n := by
    obtain ⟨m, rfl⟩ := Nat.exists_eq_add_of_le' hn
    rw [s.sequenced_succ', hrcomp]
    rfl
  refine ⟨fun n hn hnk => ?_, ?_⟩
  · obtain ⟨m, rfl⟩ := Nat.exists_eq_add_of_le' hn
    refine exists_rcompRun (P := fun r => r.phase = .decelerating) ?_
    rw [hsequenced hn]
    exact State.brakes hpending htarget hcourse rfl hnk
  · have hrest := State.rests_ahead hpending htarget hcourse (Nat.one_le_iff_ne_zero.1 hk) le_rfl
    have hsame := State.sequenced_sameCourse hpending s.rw.rampSteps.toNat
    rw [← hsequenced hk] at hrest hsame
    obtain ⟨t, ht⟩ := rcompRun_exists s.rw.rampSteps.toNat s
    rw [State.atRest, ← ht.rw_eq] at hrest
    obtain ⟨hphase, hvel, hzero, hpos⟩ := hrest
    refine ⟨t, ht, ⟨hphase, hvel, hzero, hpos⟩, ?_⟩
    rw [hpos, ht.rw_eq, hsame.target, hahead, movedBy_toNat]

end Sys2Proof.Machine
end

section
/-! A move from rest over `D` steps (R204, R205(e)): its ramp steps and its phase after each entry, from the ramp step it
peaks at. -/

namespace Sys2Proof.Machine

open Sys2Proof

/-! ## The peak -/

/-- `P` is the ramp step a move of `D` steps peaks at, with the velocities `vc` and the limit `V`: the first at the
limit, or half the distance when that comes first. -/
structure IsPeak (vc : Nat → Int) (V : Int) (D P : Nat) : Prop where
  half : 2 * P ≤ D
  pos : 2 ≤ D → 1 ≤ P
  below : ∀ k, 1 ≤ k → k < P → vc k < V
  reached : V ≤ vc P ∨ P = D / 2

theorem exists_isPeak (vc : Nat → Int) (V : Int) (D : Nat) : ∃ P, IsPeak vc V D P := by
  have hex : ∃ k, (1 ≤ k ∧ V ≤ vc k) ∨ D / 2 ≤ k := ⟨D / 2, .inr le_rfl⟩
  have hspec := Nat.find_spec hex
  have hmin : ∀ k < Nat.find hex, ¬((1 ≤ k ∧ V ≤ vc k) ∨ D / 2 ≤ k) := fun k => Nat.find_min hex
  have hle : Nat.find hex ≤ D / 2 := Nat.find_min' hex (.inr le_rfl)
  generalize Nat.find hex = P at hspec hmin hle
  refine ⟨P, by omega, by omega, fun k hk hkP => ?_, ?_⟩
  · have hnot := hmin k hkP
    omega
  · rcases hspec with ⟨_, hV⟩ | hhalf
    · exact .inl hV
    · exact .inr (le_antisymm hle hhalf)

/-- A ramp step at the limit that the move is long enough for is the peak. -/
theorem IsPeak.eq_of_reached {vc : Nat → Int} {V : Int} {D P L : Nat} (h : IsPeak vc V D P) (hL : 1 ≤ L)
    (hbelow : ∀ k, 1 ≤ k → k < L → vc k < V) (hreached : V ≤ vc L) (hlong : 2 * L < D) : P = L := by
  have hhalf := h.half
  have hpos := h.pos (by omega)
  rcases Nat.lt_trichotomy P L with hlt | heq | hgt
  · have hP := hbelow P hpos hlt
    rcases h.reached with hV | hD <;> omega
  · exact heq
  · have hL' := h.below L hL hgt
    omega

/-- The ramp steps after entry `m` of a move of `D` steps with the peak `P`. -/
def moveSteps (D P m : Nat) : Nat := min m (min P (D - m))

/-- The phase after entry `m` of such a move. -/
def movePhase (D P m : Nat) : Phase :=
  if m = D then .idle else if m ≤ P then .accelerating else if m ≤ D - P then .coasting else .decelerating

theorem movePhase_rank (D P m : Nat) :
    (movePhase D P m).rank = if m = D then 3 else if m ≤ P then 0 else if m ≤ D - P then 1 else 2 := by
  unfold movePhase
  split_ifs <;> rfl

theorem movePhase_rank_mono {D P m n : Nat} (hmn : m ≤ n) (hn : n ≤ D) :
    (movePhase D P m).rank ≤ (movePhase D P n).rank := by
  rw [movePhase_rank, movePhase_rank]
  split_ifs <;> omega

/-! ## The move -/

section
variable {s : State} {D P : Nat}

/-- The decision before entry `m + 1` of a move leaves the ramp steps and the phase of that entry. -/
theorem State.decidePhase_of_move (hpeak : IsPeak (fun k => (velcode s.cfg k s.accCode).toInt) s.limitCode.toInt D P)
    {m : Nat} (hm : 1 ≤ m) (hmD : m < D) (hD : D ≤ 2 ^ 31) (hsteps : s.rw.rampSteps.toNat = moveSteps D P m) :
    (s.decidePhase s.rw.dir (.steps (D - m))).dir = s.rw.dir ∧
    (s.decidePhase s.rw.dir (.steps (D - m))).sn = moveSteps D P (m + 1) ∧
    (m + 1 ≠ D → (s.decidePhase s.rw.dir (.steps (D - m))).phase = movePhase D P (m + 1)) := by
  obtain ⟨hhalf, hpos, hbelow, hreached⟩ := hpeak
  have hP := hpos (by omega)
  unfold moveSteps at *
  rw [State.decidePhase_ahead hsteps (by omega) (by omega)]
  rcases Nat.lt_or_ge m P with hup | hup
  · have hn : min m (min P (D - m)) = m := by omega
    have hslow := hbelow m hm hup
    have hprev := hbelow (m - 1)
    rw [hn, if_neg (by omega), if_pos (by omega)]
    refine ⟨rfl, ?_, fun hend => ?_⟩
    · dsimp only; omega
    · rw [movePhase, if_neg hend, if_pos (by omega)]
  · rcases Nat.lt_or_ge m (D - P) with hcoast | hdown
    · have hn : min m (min P (D - m)) = P := by omega
      have hprev := hbelow (P - 1)
      rw [hn, if_neg (by omega), if_neg (by omega)]
      refine ⟨rfl, ?_, fun hend => ?_⟩
      · dsimp only; omega
      · rw [movePhase, if_neg hend, if_neg (by omega), if_pos (by omega)]
    · have hn : min m (min P (D - m)) = D - m := by omega
      rw [hn, if_pos (by omega)]
      refine ⟨rfl, ?_, fun hend => ?_⟩
      · dsimp only; omega
      · rw [movePhase, if_neg hend, if_neg (by omega), if_neg (by omega)]

/-- The state after entry `m` of a move from `s` in the direction `want`. -/
structure Underway (s : State) (want : Bool) (D P m : Nat) (t : State) : Prop where
  dir : t.rw.dir = want
  pos : t.rw.pos = movedBy s.rw.pos want m
  course : t.rw.directionAndDistance = (want, .steps (D - m))
  phase : t.rw.phase = movePhase D P m
  steps : t.rw.rampSteps.toNat = moveSteps D P m
  rests : m = D → t.atRest

/-- One more entry: on the last, a decision for at most one ramp step rests the ramp. -/
theorem Underway.of_decision {t : State} (hpending : t.nothingPending) (htarget : t.hasTarget) {want : Bool} {m r : Nat}
    (hD : D = m + 1 + r) (hpos : t.rw.pos = movedBy s.rw.pos want m)
    (hcourse : t.rw.directionAndDistance = (want, .steps (r + 1))) {d : Decision}
    (hd : t.decidePhase want (.steps (r + 1)) = d) (hdir : d.dir = want) (hlast : r = 0 → d.sn ≤ 1)
    (hsn : r ≠ 0 → d.sn = moveSteps D P (m + 1)) (hphase : r ≠ 0 → d.phase = movePhase D P (m + 1)) :
    Underway s want D P (m + 1) t.rcomp.1 := by
  obtain ⟨hdir', hpos', hcourse', hrest, hgo⟩ := State.rcomp_towards hpending htarget hcourse hd hdir
  have hleft : D - (m + 1) = r := by omega
  have hmoved : t.rcomp.1.rw.pos = movedBy s.rw.pos want (m + 1) := by rw [hpos', hpos, movedBy_succ]
  by_cases hr : r = 0
  · obtain ⟨hidle, hvel, hzero, harrived⟩ := hrest hr (hlast hr)
    have hmD : m + 1 = D := by omega
    refine ⟨hdir', hmoved, hleft ▸ hcourse', ?_, ?_, fun _ => ⟨hidle, hvel, hzero, harrived⟩⟩
    · rw [hidle, movePhase, if_pos hmD]
    · rw [hzero, moveSteps, hleft, hr]
      simp
  · obtain ⟨hphase', hsteps'⟩ := hgo hr
    exact ⟨hdir', hmoved, hleft ▸ hcourse', hphase'.trans (hphase hr), hsteps'.trans (hsn hr), fun h => by omega⟩

/-- The whole move, by induction on its entries. -/
theorem State.underway (hpending : s.nothingPending) (htarget : s.hasTarget) (hzero : s.rw.rampSteps.toNat = 0)
    {want : Bool} (hcourse : s.rw.directionAndDistance = (want, .steps D))
    (hpeak : IsPeak (fun k => (velcode s.cfg k s.accCode).toInt) s.limitCode.toInt D P) {m : Nat} (hm : 1 ≤ m)
    (hmD : m ≤ D) : Underway s want D P m (s.sequenced m) := by
  induction m, hm using Nat.le_induction with
  | base =>
    obtain ⟨r, rfl⟩ := Nat.exists_eq_add_of_le hmD
    have hP := hpeak.pos
    have hd := State.decidePhase_of_rest hzero want (.steps (r + 1))
    rw [Nat.add_comm] at hcourse
    refine Underway.of_decision (m := 0) hpending htarget rfl (movedBy_zero _ _).symm hcourse hd rfl (fun _ => le_rfl)
      (fun hr => ?_) (fun hr => ?_)
    · dsimp only [moveSteps]; omega
    · rw [movePhase, if_neg (by omega), if_pos (by omega)]
  | succ m hm ih =>
    obtain ⟨hdir, hpos, hcourse', _, hsteps, _⟩ := ih (by omega)
    have hsame := s.sequenced_sameCourse hpending m
    have hpeak' : IsPeak (fun k => (velcode (s.sequenced m).cfg k (s.sequenced m).accCode).toInt)
        (s.sequenced m).limitCode.toInt D P := by
      simpa only [hsame.velcode, hsame.limitCode] using hpeak
    obtain ⟨hd, hsn, hphase⟩ :=
      State.decidePhase_of_move hpeak' hm hmD (Running.course_le htarget.1 hcourse) hsteps
    obtain ⟨r, rfl⟩ := Nat.exists_eq_add_of_le hmD
    have hleft : m + 1 + r - m = r + 1 := by omega
    rw [hdir, hleft] at hd hsn hphase
    rw [hleft] at hcourse'
    rw [s.sequenced_succ]
    refine Underway.of_decision (hsame.nothingPending hpending) (hsame.hasTarget htarget) rfl hpos hcourse' rfl hd
      (fun hr => ?_) (fun _ => hsn) (fun hr => hphase (by omega))
    rw [hsn, moveSteps]
    omega

end

/-- From rest with a target away, the distance and the direction are those of the displacement. -/
theorem Running.course_of_away {r : Running} (hkeep : r.keep = false) (haway : r.pos ≠ r.target) :
    r.directionAndDistance = (decide (0 < (r.target - r.pos).toInt), .steps (r.target - r.pos).toInt.natAbs) := by
  rw [r.directionAndDistance_of_target hkeep, if_neg (mt r.displacement_eq_zero_iff.1 haway)]
  rfl

/-- Settles O57: the position after each entry, and rest after the last and not before. -/
theorem aMoveFromRestTakesExactlyItsDistance : Obligations.AMoveFromRestTakesExactlyItsDistance := by
  intro s hpending htarget hzero haway D n hn hnD
  obtain ⟨P, hpeak⟩ := exists_isPeak (fun k => (velcode s.cfg k s.accCode).toInt) s.limitCode.toInt D
  have hcourse := Running.course_of_away htarget.1 haway
  obtain ⟨_, hpos, _, hphase, _, hrests⟩ :=
    State.underway hpending htarget (by rw [hzero]; rfl) hcourse hpeak hn hnD
  obtain ⟨t, ht⟩ := rcompRun_exists n s
  rw [← ht.rw_eq] at hpos hphase
  refine ⟨t, ht, ?_, fun hlt => ?_, fun hend => ?_⟩
  · rw [hpos, movedBy]
    simp only [decide_eq_true_eq]
  · rw [hphase, movePhase, if_neg hlt.ne]
    split_ifs <;> exact nofun
  · have hrest := hrests hend
    rwa [State.atRest, ← ht.rw_eq] at hrest

/-- Settles O58: the phases are those of the peak, and a ramp length the move is long enough for is the peak. -/
theorem aMoveFromRestVisitsItsPhasesInOrder : Obligations.AMoveFromRestVisitsItsPhasesInOrder := by
  intro s hpending htarget hzero haway D vc V
  obtain ⟨P, hpeak⟩ := exists_isPeak vc V D
  have hcourse := Running.course_of_away htarget.1 haway
  have hphase {n : Nat} {t : State} (hn : 1 ≤ n) (hnD : n ≤ D) (ht : RcompRun n s t) : t.rw.phase = movePhase D P n := by
    rw [ht.rw_eq]
    exact (State.underway hpending htarget (by rw [hzero]; rfl) hcourse hpeak hn hnD).phase
  refine ⟨fun m n t u hm hmn hnD ht hu => ?order,
    ⟨P, hpeak.half, hpeak.pos, hpeak.below, hpeak.reached, fun n t hn hnD ht => hphase hn hnD ht⟩,
    fun L hL hbelow hreached hlong => ?coasts⟩
  case order =>
    rw [hphase hm (hmn.trans hnD) ht, hphase (hm.trans hmn) hnD hu]
    exact movePhase_rank_mono hmn hnD
  case coasts =>
    obtain rfl := hpeak.eq_of_reached hL hbelow hreached hlong
    have hseen {n : Nat} (hn : 1 ≤ n) (hnD : n ≤ D) : ∃ t, RcompRun n s t ∧ t.rw.phase = movePhase D P n := by
      obtain ⟨t, ht⟩ := rcompRun_exists n s
      exact ⟨t, ht, hphase hn hnD ht⟩
    have hfirst : movePhase D P 1 = .accelerating := by rw [movePhase, if_neg (by omega), if_pos hL]
    have hcoast : movePhase D P (P + 1) = .coasting := by
      rw [movePhase, if_neg (by omega), if_neg (by omega), if_pos (by omega)]
    have hbrake (hP : 2 ≤ P) : movePhase D P (D - 1) = .decelerating := by
      rw [movePhase, if_neg (by omega), if_neg (by omega), if_neg (by omega)]
    have hidle : movePhase D P D = .idle := if_pos rfl
    exact ⟨hfirst ▸ hseen le_rfl (by omega), hcoast ▸ hseen (by omega) (by omega),
      fun hP => hbrake hP ▸ hseen (by omega) (by omega), hidle ▸ hseen (by omega) le_rfl⟩

end Sys2Proof.Machine
end

section
/-! The status a command is answered with (R220, R221, R224) and the ports it may come from (R232): the tests of each
command decide one status, and a status other than `OK` is the whole effect. -/

namespace Sys2Proof.Machine

open Sys2Proof

/-! ## The permission table by command and by opcode (R232) -/

/-- The rows of the table mark one port, two ports or all three. -/
theorem permits_iff_mem_portsOfOpcode (i : Instr) (q : Port) :
    permits i q = true ↔ q ∈ portsOfOpcode i.opcode.toNat := by
  cases i with
  | qpush | qpop | qack | init | pacc | pspd | ptgt | pkeep | pchk | pub | rrun | rmovt | rmove | radv | rcomp =>
    exact decide_eq_true_iff.trans List.mem_singleton.symm
  | qend | rstop | ristop | rgacc => exact decide_eq_true_iff.trans List.mem_pair.symm
  | _ =>
    have hall : q ∈ [Port.app, .rt, .emit] := by cases q <;> decide
    exact iff_of_true rfl hall

/-! ## A response with a given status -/

/-- `t` is answered with the status `st`: after some effect when it is `OK`, and otherwise `s` with data zero (R221). -/
def AnsweredAs (s : State) (st : Status) (t : State) : Prop :=
  ∃ (u : State) (d : BitVec 32), t = u.respond st d ∧ (st ≠ .ok → u = s ∧ d = 0)

theorem answeredAs_answer (s u : State) (d : BitVec 32) : AnsweredAs s .ok (u.answer d) :=
  ⟨u, d, rfl, fun h => absurd rfl h⟩

theorem answeredAs_raise (s : State) (st : Status) : AnsweredAs s st (s.raise st) :=
  ⟨s, 0, rfl, fun _ => ⟨rfl, rfl⟩⟩

theorem AnsweredAs.ite {s t u : State} {st st' : Status} {p : Prop} [Decidable p] (ht : AnsweredAs s st t)
    (hu : AnsweredAs s st' u) : AnsweredAs s (if p then st else st') (if p then t else u) := by
  split
  · exact ht
  · exact hu

/-- A branch between two effects, both answered alike. -/
theorem AnsweredAs.either {s t u : State} {st : Status} {p : Prop} [Decidable p] (ht : AnsweredAs s st t)
    (hu : AnsweredAs s st u) : AnsweredAs s st (if p then t else u) := by
  split
  · exact ht
  · exact hu

/-- The configuration check raises what is missing (R165). -/
theorem answeredAs_checked {s : State} {f : State → State} (hf : AnsweredAs s .ok (f s)) :
    AnsweredAs s s.missing (s.checked f) := by
  by_cases h : s.missing = .ok
  · have hpasses : s.checked f = f s := if_pos h
    rw [hpasses, h]
    exact hf
  · rw [State.checked_of_missing h]
    exact answeredAs_raise s _

theorem answeredAs_onPort {i : Instr} {s t : State} {f : State → State} {st : Status} (h : s.onPort i f = .next t)
    (hf : AnsweredAs s st (f s)) : AnsweredAs s (if permits i s.port then st else .portViolation) t := by
  rcases s.onPort_cases i f t h with ⟨hp, rfl⟩ | ⟨hp, rfl⟩ <;> rw [hp]
  · exact hf
  · exact answeredAs_raise s _

theorem AnsweredAs.eq_raise {s t : State} {st : Status} (h : AnsweredAs s st t) (hst : st ≠ .ok) :
    t = s.raise st := by
  obtain ⟨u, d, rfl, hwhole⟩ := h
  obtain ⟨rfl, rfl⟩ := hwhole hst
  rfl

/-- The last response in the outbox carries the status. -/
theorem AnsweredAs.status_eq {s t : State} {st : Status} (h : AnsweredAs s st t) {before : List Response} {q : Port}
    {st' : Status} {d : BitVec 32} (ht : t.outbox = before ++ [⟨q, st', d⟩]) : st' = st := by
  obtain ⟨u, e, rfl, _⟩ := h
  obtain ⟨_, hresponse⟩ := List.append_inj' ht rfl
  obtain ⟨_, hstatus, _⟩ := Response.mk.inj (List.singleton_inj.1 hresponse)
  exact hstatus.symm

/-! ## The tests of a command behind its port check -/

/-- The status a command's own tests arrive at: that of the table of R221, but `QPUSH` tests for a full queue by
comparing the indices (R140), which the table states as a count. -/
def testedStatus (i : Instr) (s : State) : Status :=
  match i with
  | .qpush ticks stepsb _ _ =>
    if s.isFull then .queueFull
    else if Config.maxTicks < zext ticks then .ticksOutOfRange
    else if Config.maxSteps < zext stepsb then .stepsOutOfRange
    else .ok
  | i => ownStatus i s

/-- With the indices in range (R39) the comparison tells a full queue. -/
theorem testedStatus_eq_ownStatus (i : Instr) {s : State} (hr : s.cq.readIdx ≤ s.cfg.queueLen)
    (hw : s.cq.writeIdx ≤ s.cfg.queueLen) : testedStatus i s = ownStatus i s := by
  cases i with
  | qpush => simp only [testedStatus, s.isFull_iff_count hr hw]; rfl
  | _ => rfl

theorem testedStatus_ne_portViolation (i : Instr) (s : State) : testedStatus i s ≠ .portViolation := by
  unfold testedStatus ownStatus State.missing
  cases i with
  | qpush | qack | pacc | pchk | rrun | rmovt | rmove => dsimp only; split_ifs <;> exact nofun
  | _ => exact nofun

/-- The tests of a command in the order of R224: the port's, then its own. -/
theorem exec_answeredAs {i : Instr} {s t : State} (h : exec i s = .next t) :
    AnsweredAs s (if permits i s.port then testedStatus i s else .portViolation) t := by
  unfold exec at h
  cases i with
  | qpush =>
    exact answeredAs_onPort h (.ite (answeredAs_raise s _) (.ite (answeredAs_raise s _)
      (.ite (answeredAs_raise s _) (answeredAs_answer s _ _))))
  | qack | pacc => exact answeredAs_onPort h (.ite (answeredAs_raise s _) (answeredAs_answer s _ _))
  | qpop | pub | radv => exact answeredAs_onPort h (.either (answeredAs_answer s _ _) (answeredAs_answer s _ _))
  | pchk =>
    exact answeredAs_onPort h (answeredAs_checked (f := fun s => s.answer fmtNone) (answeredAs_answer s s fmtNone))
  | rrun => exact answeredAs_onPort h (answeredAs_checked (answeredAs_answer s _ _))
  | rmovt | rmove =>
    exact answeredAs_onPort h (answeredAs_checked (.either (answeredAs_answer s _ _) (answeredAs_answer s _ _)))
  | _ => exact answeredAs_onPort h (answeredAs_answer s _ _)

/-- A command puts one response, on its port, behind those before it (R81). -/
theorem exec_outbox {i : Instr} {s t : State} (h : exec i s = .next t) :
    ∃ (st : Status) (d : BitVec 32), t.outbox = s.outbox ++ [⟨s.port, st, d⟩] := by
  obtain ⟨u, st, d, he, rfl⟩ := exec_answered h
  obtain ⟨hport, _, houtbox⟩ := he.keeps_interface
  exact ⟨st, d, by rw [State.respond_outbox, hport, houtbox]⟩

/-- Settles O10: an unmarked port is refused before the command's own tests, and none of these raises its status. -/
theorem portPermissionTable : Obligations.PortPermissionTable := by
  intro i s
  rw [← permits_iff_mem_portsOfOpcode]
  refine ⟨fun hport => exec_refused i s (Bool.eq_false_iff.2 hport), fun hport => ?marked⟩
  case marked =>
    obtain ⟨t, ht⟩ := exec_next i s
    obtain ⟨st, d, houtbox⟩ := exec_outbox ht
    have hanswered := exec_answeredAs ht
    rw [if_pos hport] at hanswered
    obtain rfl := hanswered.status_eq houtbox
    exact ⟨t, _, d, ht, houtbox, testedStatus_ne_portViolation i s⟩

/-! ## The step (R86, R224) -/

/-- The decoder's test comes first; the others see the records as they were when the command was presented. -/
theorem step_answeredAs {s t : State} {c : Command} {rest : List Command} (hin : s.inbox = c :: rest)
    (hr : s.cq.readIdx ≤ s.cfg.queueLen) (hw : s.cq.writeIdx ≤ s.cfg.queueLen) (h : step s = .next t) :
    AnsweredAs (s.take c rest) (expectedStatus c s) t := by
  rcases step_cases s c rest hin with ⟨i, hd, hstep⟩ | ⟨r, hd, hstep⟩
  · have hexpected : expectedStatus c s =
        if permits i c.port then testedStatus i (s.take c rest) else .portViolation := by
      rw [testedStatus_eq_ownStatus i (s := s.take c rest) hr hw]
      simp only [expectedStatus, hd, permits_iff_mem_portsOfOpcode]
      rfl
    rw [hexpected]
    exact exec_answeredAs (hstep.symm.trans h)
  · have hexpected : expectedStatus c s = .illegalCommand := by rw [expectedStatus, hd]
    obtain rfl := Host.Outcome.next.inj (hstep.symm.trans h)
    rw [hexpected]
    exact answeredAs_raise _ _

/-- Settles O9: the one response carries the status of the table, and a raised status is the whole effect. -/
theorem statusesFollowTheTable : Obligations.StatusesFollowTheTable := by
  intro s c rest hin hr hw
  obtain ⟨t, ⟨port, st, d⟩, hstep, _, _, houtbox, rfl⟩ := step_answers hin
  have hanswered := step_answeredAs hin hr hw hstep
  obtain rfl := hanswered.status_eq houtbox
  exact ⟨t, d, hstep, houtbox, hanswered.eq_raise⟩

end Sys2Proof.Machine
end

section
/-! The reset state (R250): its registers, and the base case of the invariants. -/

namespace Sys2Proof.Machine

open Sys2Proof

/-- Settles O33: each record of the reset state is a constant, and the parameters are the given ones. -/
theorem resetValues : Obligations.ResetValues :=
  fun _ => ⟨rfl, rfl, rfl, rfl, rfl, rfl, rfl, rfl, rfl⟩

/-- Settles O55: the case of `resetWith_inv` in which no command is presented. -/
theorem invariantsHoldAtReset : Obligations.InvariantsHoldAtReset :=
  fun _ hc => resetWith_inv hc []

end Sys2Proof.Machine
end
